-- ==== Sys2Proof/Word.lean ====
section
/-! DEFINITION. The word and byte types of TOTPCORE (20_memory.md R50: a 32-bit data path; 10_state.md section 4:
byte buffers). -/

namespace Sys2Proof

/-- A 32-bit bus or command word (20_memory.md R50, 30_encoding.md R80). -/
abbrev Word := BitVec 32

/-- One byte of a buffer, or one 8-bit character code (10_state.md section 4, 30_encoding.md R82). -/
abbrev Byte := BitVec 8

end Sys2Proof
end

