-- ==== Sys2Proof/Syntax.lean ====
section
/-! DEFINITION. The seven commands of TOTPCORE, one constructor per row of spec/opcode_table.json
(30_encoding.md R83). -/

namespace Sys2Proof

/-- A command. The operand of B32_INIT and TRUNC is a number and that of B32_PUSH a character code
(30_encoding.md R82; log 15). -/
inductive Instr where
  /-- NOP (44_control.md R160). -/
  | nop
  /-- B32_INIT maxLen (41_base32.md R103). -/
  | b32Init (maxLen : Nat)
  /-- B32_PUSH character (41_base32.md R107). -/
  | b32Push (char : Byte)
  /-- B32_FINISH (41_base32.md R109). -/
  | b32Finish
  /-- CTR_ENC (42_counter.md R130). -/
  | ctrEnc
  /-- TRUNC digits (43_truncate.md R143). -/
  | trunc (digits : Nat)
  /-- SRST (44_control.md R161). -/
  | srst
  deriving DecidableEq, Repr

end Sys2Proof
end

