-- ==== Sys2Proof/WellFormed.lean ====
section
/-! DEFINITION. Which commands can be written as a command word: a numeric operand must fit the 8-bit ARG field
(30_encoding.md R82, R88). An operand that fits but is outside the legal values of R82 (maxLen 65 to 255, digits 0 or
11 to 255) is well formed: the command runs and reports BAD_MAXLEN or BAD_DIGITS. -/

namespace Sys2Proof

/-- The numeric operand, where there is one, is 0 to 255 (30_encoding.md R88). -/
def Instr.wellFormed : Instr → Bool
  | .nop => true
  | .b32Init maxLen => decide (maxLen < 256)
  | .b32Push _ => true
  | .b32Finish => true
  | .ctrEnc => true
  | .trunc digits => decide (digits < 256)
  | .srst => true

end Sys2Proof
end

