-- ==== Sys2Proof/Decode.lean ====
section
/-! DEFINITION. The command word (30_encoding.md R80 to R87): its fields, the decoder, total on all 2^32 words and
refusing by name, and the encoder. -/

namespace Sys2Proof

/-- OP, bits [7:0] of a command word (30_encoding.md R81). -/
def opField (w : Word) : BitVec 8 := w.extractLsb' 0 8

/-- ARG, bits [15:8] (R81). -/
def argField (w : Word) : BitVec 8 := w.extractLsb' 8 8

/-- RSV, bits [31:16] (R81). -/
def rsvField (w : Word) : BitVec 16 := w.extractLsb' 16 16

/-- Why a word is no command. Every one of these gives the result code ILLEGAL (R85, R86). -/
inductive Illegal where
  /-- RSV is not 0 (R86). -/
  | reservedBits
  /-- OP is 0x06 to 0x0E or 0x10 to 0xFF (R86). -/
  | reservedOpcode
  /-- ARG is not 0 in NOP, B32_FINISH, CTR_ENC or SRST (R85). -/
  | reservedArgument
  deriving DecidableEq, Repr

/-- A command whose ARG is reserved: it is that command only where ARG is 0 (R85). -/
def withoutArg (w : Word) (i : Instr) : Except Illegal Instr :=
  if argField w = 0 then .ok i else .error .reservedArgument

/-- The decoder of R84, in the order of its checks. -/
def decode (w : Word) : Except Illegal Instr :=
  if rsvField w = 0 then
    match (opField w).toNat with
    | 0x00 => withoutArg w .nop
    | 0x01 => .ok (.b32Init (argField w).toNat)
    | 0x02 => .ok (.b32Push (argField w))
    | 0x03 => withoutArg w .b32Finish
    | 0x04 => withoutArg w .ctrEnc
    | 0x05 => .ok (.trunc (argField w).toNat)
    | 0x0F => withoutArg w .srst
    | _ => .error .reservedOpcode
  else .error .reservedBits

/-- The opcode of a command (R83). -/
def Instr.opcode : Instr → BitVec 8
  | .nop => 0x00
  | .b32Init _ => 0x01
  | .b32Push _ => 0x02
  | .b32Finish => 0x03
  | .ctrEnc => 0x04
  | .trunc _ => 0x05
  | .srst => 0x0F

/-- The ARG of a command: its operand, or 0 where ARG is reserved (R82, R85). -/
def Instr.arg : Instr → BitVec 8
  | .nop => 0
  | .b32Init maxLen => BitVec.ofNat 8 maxLen
  | .b32Push char => char
  | .b32Finish => 0
  | .ctrEnc => 0
  | .trunc digits => BitVec.ofNat 8 digits
  | .srst => 0

/-- The word of a command, with RSV = 0 above ARG above OP (R88). It is the command's word where the command is well
formed. -/
def encode (i : Instr) : Word := 0#16 ++ i.arg ++ i.opcode

/-- The decoder's reading of an instruction of `nbits` bits given as a number. A command has one length, 32 bits
(R80), and travels as one bus word, so no byte order is involved. A number of more than 32 bits is no command. -/
def decodeTableWord (nbits w : Nat) : Option Instr :=
  if nbits ≤ 32 ∧ w < 2 ^ nbits then
    match decode (BitVec.ofNat 32 w) with
    | .ok i => some i
    | .error _ => none
  else none

end Sys2Proof
end

