-- ==== Sys2Proof/Config.lean ====
section
/-! DEFINITION. The implementation parameters of 00_scope.md R6, with the values of this hardware. `P_BASE` is left
open by the spec, so it is built from a constant without a body (log 10). The spec leaves no value of any result open,
so there is no other free value. -/

namespace Sys2Proof.Config

/-- P_KEY_MAX: the capacity of the KEY buffer in bytes (R6). -/
abbrev keyMax : Nat := 64

/-- P_DIGEST_LEN: the digest length N in bytes that TRUNC reads; 20 in this hardware (R6, log 9). -/
abbrev digestLen : Nat := 20

/-- P_DIGITS_MIN: the least legal digit count (R6). -/
abbrev digitsMin : Nat := 1

/-- P_DIGITS_MAX: the largest legal digit count (R6). -/
abbrev digitsMax : Nat := 10

/-- P_TOKEN_MAX: the capacity of the TOKEN buffer in characters (R6). -/
abbrev tokenMax : Nat := 10

/-- The size in bytes of the bus window (20_memory.md R50). -/
abbrev windowSize : Nat := 0x200

/-- The platform's choice of a place for the window, which the spec leaves OPEN (R6, 92 D4; log 10): nothing
constrains it. -/
opaque pBaseIndex : Nat

/-- P_BASE: the bus address of byte offset 0x000 of the window, any multiple of 0x200 (R6). -/
def pBase : Nat := windowSize * pBaseIndex

end Sys2Proof.Config
end

