-- ==== Sys2Proof/Machine/State.lean ====
section
/-! DEFINITION. The state of TOTPCORE as plain data (10_state.md section 2), the inputs that reach it, the reasons a
step can stop, and the state after reset (70_reset_and_hazards.md R190). -/

namespace Sys2Proof.Machine

/-- The bus masters (00_scope.md R7). -/
inductive Master where
  | host
  | macProvider
  deriving DecidableEq, Repr

/-- What an access does: `MemRead(off, size)` or `MemWrite(off, size, data)` (20_memory.md R50). -/
inductive AccessKind where
  | read
  | write (data : Word)
  deriving DecidableEq, Repr

/-- One bus access: its master, the byte offset it names within the window, its size in bytes and its kind
(20_memory.md R50, R52). The data of a write is used only where the access is 32 bits wide (log 16). -/
structure Access where
  master : Master
  off : Nat
  size : Nat
  kind : AccessKind
  deriving DecidableEq, Repr

/-- What the outside does to TOTPCORE: a bus access, or the hardware reset input (20_memory.md R50,
70_reset_and_hazards.md R191). -/
inductive Input where
  | access (a : Access)
  | hardwareReset
  deriving DecidableEq, Repr

/-- The bus response to an access (20_memory.md R50, R51): the master it goes to, whether it is a bus error, and the
data a read returns. -/
structure Response where
  master : Master
  busError : Bool
  data : Option Word
  deriving DecidableEq, Repr

/-- The decoder state B32ST (41_base32.md R100). -/
inductive B32State where
  | idle
  | active
  | stopped
  | finished
  deriving DecidableEq, Repr

/-- The result codes that a command can leave in ERR (60_exceptions.md R170). Codes 8 to 15 are never produced. -/
inductive ResultCode where
  | ok
  | illegal
  | badMaxlen
  | seq
  | emptyKey
  | badDigits
  | macFail
  | noDigest
  deriving DecidableEq, Repr

/-- TOTPCORE's state: one field per stored element of 10_state.md section 2, then the model's own two fields. KRDY is
derived (`krdy`), and the registers are views of these elements (`readWord`). -/
structure State where
  /-- ERR, 4 bits as read (R23). -/
  err : ResultCode
  /-- TVALID (R23). -/
  tvalid : Bool
  /-- B32ST, 2 bits as read (R24). -/
  b32st : B32State
  /-- NSYM (R24). -/
  nsym : BitVec 3
  /-- KLEN (R24). -/
  klen : BitVec 7
  /-- KMAX (R24). -/
  kmax : BitVec 7
  /-- ACC, hidden (R35). -/
  acc : BitVec 40
  /-- COUNTER = CNT_HI:CNT_LO (R25). -/
  counter : BitVec 64
  /-- DV (R26). -/
  dv : Bool
  /-- MERR (R26). -/
  merr : Bool
  /-- TOFF (R27). -/
  toff : BitVec 4
  /-- TLEN (R27). -/
  tlen : BitVec 4
  /-- TRAW (R28). -/
  traw : BitVec 31
  /-- TVAL (R29). -/
  tval : BitVec 32
  /-- KEY[0..63] (R30). -/
  key : Vector Byte Config.keyMax
  /-- CB[0..7] (R32). -/
  cb : Vector Byte 8
  /-- DIGEST[0..P_DIGEST_LEN-1] (R33). -/
  digest : Vector Byte Config.digestLen
  /-- TOKEN[0..9] (R34). -/
  token : Vector Byte Config.tokenMax
  /-- The model's own: the accesses and resets still to come, in the order TOTPCORE accepts them (20_memory.md R58;
  log 1, log 13). -/
  inputs : List Input
  /-- The model's own: the bus response to the last access served (log 2). -/
  response : Option Response
  deriving DecidableEq, Repr

/-- Why a step can stop with a fault. -/
inductive Fault where
  /-- Raised by `serveAccess` on an access at an offset of 0x200 or above. Such an offset is not TOTPCORE's and is
  outside the spec (20_memory.md R50; log 5). Safe: the model stops where the spec says nothing. -/
  | outsideWindow
  deriving DecidableEq, Repr

/-- Why a step can be refused. -/
inductive Refusal where
  /-- Raised by an arm of `exec` whose instruction has no meaning yet. No arm raises it now. Safe: the model stops. -/
  | notModelled (mnemonic : String)
  deriving DecidableEq, Repr

/-- The state right after reset: every element 0, B32ST IDLE, ERR OK (70_reset_and_hazards.md R190). The model's own
fields start empty (DESIGN CHOICE, log 1 and log 2). -/
def State.reset : State where
  err := .ok
  tvalid := false
  b32st := .idle
  nsym := 0
  klen := 0
  kmax := 0
  acc := 0
  counter := 0
  dv := false
  merr := false
  toff := 0
  tlen := 0
  traw := 0
  tval := 0
  key := Vector.replicate _ 0
  cb := Vector.replicate _ 0
  digest := Vector.replicate _ 0
  token := Vector.replicate _ 0
  inputs := []
  response := none

end Sys2Proof.Machine
end

