-- ==== Sys2Proof/Machine/Ops.lean ====
section
/-! DEFINITION. The named operations over the state: one update per group of elements that changes together, buffer
bytes and bus words, the end of a command, and reset. TOTPCORE takes no exception and returns from none
(60_exceptions.md R172, R178); `finish` stands where a processor would raise one (00_scope.md R10). -/

namespace Sys2Proof.Machine

/-! ### Updates of the state elements -/

/-- ERR <- c. -/
def State.setErr (s : State) (c : ResultCode) : State := { s with err := c }

/-- TVALID <- b. -/
def State.setTvalid (s : State) (b : Bool) : State := { s with tvalid := b }

/-- B32ST <- x. -/
def State.setB32st (s : State) (x : B32State) : State := { s with b32st := x }

/-- ACC <- acc; NSYM <- nsym: the current group of symbols (10_state.md R35). -/
def State.setGroup (s : State) (acc : BitVec 40) (nsym : BitVec 3) : State := { s with acc := acc, nsym := nsym }

/-- KEY and KLEN: the key written so far (10_state.md R30). -/
def State.setKey (s : State) (key : Vector Byte Config.keyMax) (klen : BitVec 7) : State :=
  { s with key := key, klen := klen }

/-- KMAX <- kmax. -/
def State.setKmax (s : State) (kmax : BitVec 7) : State := { s with kmax := kmax }

/-- COUNTER <- v. -/
def State.setCounter (s : State) (v : BitVec 64) : State := { s with counter := v }

/-- CB <- cb. -/
def State.setCb (s : State) (cb : Vector Byte 8) : State := { s with cb := cb }

/-- DV <- dv; MERR <- merr: the digest handshake (10_state.md R26). -/
def State.setDstat (s : State) (dv merr : Bool) : State := { s with dv := dv, merr := merr }

/-- DIGEST <- digest. -/
def State.setDigest (s : State) (digest : Vector Byte Config.digestLen) : State := { s with digest := digest }

/-- TOKEN, TLEN, TOFF, TRAW and TVAL: the results of a successful TRUNC (43_truncate.md R149, R150). -/
def State.setToken (s : State) (token : Vector Byte Config.tokenMax) (tlen toff : BitVec 4) (traw : BitVec 31)
    (tval : BitVec 32) : State :=
  { s with token := token, tlen := tlen, toff := toff, traw := traw, tval := tval }

/-- The inputs still to come (log 1). -/
def State.setInputs (s : State) (inputs : List Input) : State := { s with inputs := inputs }

/-- The bus response to the last access (log 2). -/
def State.setResponse (s : State) (r : Option Response) : State := { s with response := r }

/-! ### Buffer bytes and bus words -/

/-- Byte `i` of a buffer as the bus reads it: a byte index with no buffer byte behind it reads as 0
(20_memory.md R55). -/
def byteAt {n : Nat} (buf : Vector Byte n) (i : Nat) : Byte := buf[i]?.getD 0

/-- `BUF[i] <- b` (00_scope.md R10). A byte index with no buffer byte behind it is ignored (20_memory.md R55). -/
def setByte {n : Nat} (buf : Vector Byte n) (i : Nat) (b : Byte) : Vector Byte n := buf.setIfInBounds i b

/-- The bus word of the four buffer bytes from index `i`, little-endian lanes (20_memory.md R55). -/
def laneWord {n : Nat} (buf : Vector Byte n) (i : Nat) : Word :=
  byteAt buf (i + 3) ++ byteAt buf (i + 2) ++ byteAt buf (i + 1) ++ byteAt buf i

/-- Write the four lanes of a bus word to the buffer bytes from index `i`; lanes past the buffer's end are ignored
(20_memory.md R55). -/
def writeLanes {n : Nat} (buf : Vector Byte n) (i : Nat) (v : Word) : Vector Byte n :=
  (List.range 4).foldl (fun buf j => setByte buf (i + j) (v.extractLsb' (8 * j) 8)) buf

/-! ### The end of a command, and reset -/

/-- `finish(code)`: leave the result code in ERR and end the command (00_scope.md R10, 60_exceptions.md R171). -/
def finish (c : ResultCode) (s : State) : State := s.setErr c

/-- Every state element to its reset value (70_reset_and_hazards.md R190); the model's own fields are no state
elements and stay. -/
def resetElements (s : State) : State := (State.reset.setInputs s.inputs).setResponse s.response

/-- Hardware reset: the state of R190, and nothing of what happened before survives (70_reset_and_hazards.md R191),
so the last response goes too; the inputs are accesses still to come (log 12). -/
def hardwareReset (s : State) : State := (resetElements s).setResponse none

end Sys2Proof.Machine
end

