-- ==== Sys2Proof/Machine/Operands.lean ====
section
/-! DEFINITION. What the commands compute from their operands: the symbol index of a character (41_base32.md R102),
the bytes of COUNTER (42_counter.md R131), and the offset, window, value and digits of a token
(43_truncate.md R145 to R149). -/

namespace Sys2Proof.Machine

/-- `sym(c)`: the symbol index of a character code, or none outside the alphabet (41_base32.md R102). The codes and
the index values are in the spec from general knowledge (UNVERIFIED, log 17). -/
def sym (c : Byte) : Option (BitVec 5) :=
  if 0x41 ≤ c.toNat ∧ c.toNat ≤ 0x5A then some (BitVec.ofNat 5 (c.toNat - 0x41))
  else if 0x32 ≤ c.toNat ∧ c.toNat ≤ 0x37 then some (BitVec.ofNat 5 (c.toNat - 0x32 + 26))
  else none

/-- The eight big-endian bytes of a counter: byte `i` is `COUNTER[63-8i : 56-8i]` (42_counter.md R131). -/
def counterBytes (counter : BitVec 64) : Vector Byte 8 :=
  Vector.ofFn fun i => counter.extractLsb' (8 * (7 - i.val)) 8

/-- The offset: the low nibble of the last digest byte (43_truncate.md R145). -/
def truncOffset (digest : Vector Byte Config.digestLen) : BitVec 4 :=
  (byteAt digest (Config.digestLen - 1) &&& 0x0F).setWidth 4

/-- The 31-bit value: four digest bytes from the offset, big-endian, with bit 31 cleared (43_truncate.md R146). -/
def truncRaw (digest : Vector Byte Config.digestLen) : BitVec 31 :=
  let off := (truncOffset digest).toNat
  (byteAt digest off &&& 0x7F).setWidth 7 ++ byteAt digest (off + 1) ++ byteAt digest (off + 2)
    ++ byteAt digest (off + 3)

/-- The token value: the exact remainder of the 31-bit value by 10^d (43_truncate.md R147). -/
def tokenValue (raw : BitVec 31) (d : Nat) : Nat := raw.toNat % 10 ^ d

/-- Digit `i` of a d-digit token, as its ASCII code (43_truncate.md R148). -/
def tokenDigit (tv d i : Nat) : Byte := BitVec.ofNat 8 (0x30 + tv / 10 ^ (d - 1 - i) % 10)

/-- The ten TOKEN bytes: d digits, most significant first, then 0x00 (43_truncate.md R149). -/
def tokenBytes (tv d : Nat) : Vector Byte Config.tokenMax :=
  Vector.ofFn fun i => if i.val < d then tokenDigit tv d i.val else 0

end Sys2Proof.Machine
end

