-- ==== Sys2Proof/Machine/Base32.lean ====
section
/-! DEFINITION. The base32 decoder: B32_INIT, B32_PUSH and B32_FINISH (41_base32.md). -/

namespace Sys2Proof.Machine

/-- One turn of the loop of `emit(k)`: append byte `j` of the k symbols in ACC to KEY, or drop it where KLEN = KMAX
(41_base32.md R105). A write past KEY's last byte, which no reachable state makes, is dropped (log 7). -/
def emitByte (k : Nat) (s : State) (j : Nat) : State :=
  if s.klen < s.kmax then
    s.setKey (setByte s.key s.klen.toNat (s.acc.extractLsb' (5 * k - 8 - 8 * j) 8)) (s.klen + 1)
  else s

/-- `emit(k)`: append the whole bytes of the k symbols in ACC to KEY, first byte first, while space remains
(41_base32.md R105). -/
def emit (k : Nat) (s : State) : State := (List.range (5 * k / 8)).foldl (emitByte k) s

/-- `flush()`: emit a partial group, then clear the group (41_base32.md R106). -/
def flush (s : State) : State := (if 0 < s.nsym.toNat then emit s.nsym.toNat s else s).setGroup 0 0

/-- A symbol pushed in state ACTIVE (41_base32.md R107): it joins the group; the 8th symbol emits 5 bytes and, where
KEY is then full, stops the decoder (R114). The count is compared with 8 before it is cut to NSYM's 3 bits (DEDUCED,
log 6). -/
def pushSymbol (v : BitVec 5) (s : State) : State :=
  let acc := (s.acc <<< 5) ||| v.setWidth 40
  let count := s.nsym.toNat + 1
  if count = 8 then
    let t := (emit 8 (s.setGroup acc 0)).setGroup 0 0
    if t.klen = t.kmax then t.setB32st .stopped else t
  else s.setGroup acc (BitVec.ofNat 3 count)

/-- B32_INIT: start a decode with output capacity `maxLen` (41_base32.md R103, R104, R119). -/
def execB32Init (maxLen : Nat) (s : State) : Host.Outcome State Fault Refusal :=
  if Config.keyMax < maxLen then .next (finish .badMaxlen s)
  else
    let t := ((s.setKey (Vector.replicate _ 0) 0).setGroup 0 0).setKmax (BitVec.ofNat 7 maxLen)
    .next (finish .ok (t.setB32st (if maxLen = 0 then .stopped else .active)))

/-- B32_PUSH: feed one input character (41_base32.md R107, R108). -/
def execB32Push (char : Byte) (s : State) : Host.Outcome State Fault Refusal :=
  match s.b32st with
  | .idle => .next (finish .seq s)
  | .stopped => .next (finish .ok s)
  | .finished => .next (finish .ok s)
  | .active =>
    match sym char with
    | none => .next (finish .ok ((flush s).setB32st .stopped))
    | some v => .next (finish .ok (pushSymbol v s))

/-- The end of input outside IDLE: flush where the decoder is ACTIVE, then FINISHED (41_base32.md R109). -/
def endInput (s : State) : State := (if s.b32st = .active then flush s else s).setB32st .finished

/-- B32_FINISH: mark the end of input and publish the key (41_base32.md R109, R110; log 8). -/
def execB32Finish (s : State) : Host.Outcome State Fault Refusal :=
  if s.b32st = .idle then .next (finish .seq s)
  else
    let t := endInput s
    .next (finish (if t.klen = 0 then .emptyKey else .ok) t)

end Sys2Proof.Machine
end

