-- ==== Sys2Proof/Machine/Control.lean ====
section
/-! DEFINITION. The control commands NOP and SRST (44_control.md). -/

namespace Sys2Proof.Machine

/-- NOP: report success (44_control.md R160). -/
def execNop (s : State) : Host.Outcome State Fault Refusal := .next (finish .ok s)

/-- SRST: every state element to its reset value, ERR among them (44_control.md R161, R162). -/
def execSrst (s : State) : Host.Outcome State Fault Refusal := .next (resetElements s)

end Sys2Proof.Machine
end

