-- ==== Sys2Proof/Machine/Counter.lean ====
section
/-! DEFINITION. The counter encoder: CTR_ENC (42_counter.md). -/

namespace Sys2Proof.Machine

/-- CTR_ENC: encode COUNTER into the eight counter bytes (42_counter.md R130, R131). -/
def execCtrEnc (s : State) : Host.Outcome State Fault Refusal :=
  .next (finish .ok (s.setCb (counterBytes s.counter)))

end Sys2Proof.Machine
end

