-- ==== Sys2Proof/Machine/Truncate.lean ====
section
/-! DEFINITION. Dynamic truncation and token render: TRUNC (43_truncate.md). -/

namespace Sys2Proof.Machine

/-- A TRUNC whose check fails: TVALID <- 0 and the check's code in ERR, nothing else (43_truncate.md R144). -/
def truncFails (c : ResultCode) (s : State) : State := finish c (s.setTvalid false)

/-- The computation of a TRUNC whose checks pass: the token and its intermediate values, TVALID <- 1, DV <- 0
(43_truncate.md R145 to R151). -/
def renderToken (d : Nat) (s : State) : State :=
  let raw := truncRaw s.digest
  let tv := tokenValue raw d
  ((s.setToken (tokenBytes tv d) (BitVec.ofNat 4 d) (truncOffset s.digest) raw (BitVec.ofNat 32 tv)).setTvalid
    true).setDstat false s.merr

/-- TRUNC: check the digit count, then MERR, then DV; then truncate the digest and render the token
(43_truncate.md R143, R144). -/
def execTrunc (digits : Nat) (s : State) : Host.Outcome State Fault Refusal :=
  if digits < Config.digitsMin ∨ Config.digitsMax < digits then .next (truncFails .badDigits s)
  else if s.merr then .next (truncFails .macFail s)
  else if !s.dv then .next (truncFails .noDigest s)
  else .next (finish .ok (renderToken digits s))

end Sys2Proof.Machine
end

