-- ==== Sys2Proof/Machine/Dispatch.lean ====
section
/-! DEFINITION. One arm per command of spec/opcode_table.json, each a call of that command's meaning. -/

namespace Sys2Proof.Machine

/-- The effect of a command (30_encoding.md R84). -/
def exec (i : Instr) (s : State) : Host.Outcome State Fault Refusal :=
  match i with
  | .nop => Sys2Proof.Machine.execNop s
  | .b32Init maxLen => Sys2Proof.Machine.execB32Init maxLen s
  | .b32Push char => Sys2Proof.Machine.execB32Push char s
  | .b32Finish => Sys2Proof.Machine.execB32Finish s
  | .ctrEnc => Sys2Proof.Machine.execCtrEnc s
  | .trunc digits => Sys2Proof.Machine.execTrunc digits s
  | .srst => Sys2Proof.Machine.execSrst s

end Sys2Proof.Machine
end

