-- ==== Sys2Proof/Machine/Flags.lean ====
section
/-! DEFINITION. The status bits and the words that the status registers read as (10_state.md R23 to R29). TOTPCORE has
no condition codes (10_state.md R38). -/

namespace Sys2Proof.Machine

/-- The number of a result code (60_exceptions.md R170). -/
def ResultCode.bits : ResultCode → BitVec 4
  | .ok => 0
  | .illegal => 1
  | .badMaxlen => 2
  | .seq => 3
  | .emptyKey => 4
  | .badDigits => 5
  | .macFail => 6
  | .noDigest => 7

/-- The value of B32ST (41_base32.md R100). -/
def B32State.bits : B32State → BitVec 2
  | .idle => 0
  | .active => 1
  | .stopped => 2
  | .finished => 3

/-- KRDY: 1 exactly when B32ST = FINISHED and KLEN > 0; derived, never stored (10_state.md R23). -/
def krdy (s : State) : Bool := decide (s.b32st = .finished ∧ 0 < s.klen.toNat)

/-- STATUS: TVALID in bit 5, KRDY in bit 4, ERR in bits [3:0] (10_state.md R23). -/
def statusWord (s : State) : Word := 0#26 ++ BitVec.ofBool s.tvalid ++ BitVec.ofBool (krdy s) ++ s.err.bits

/-- B32STAT: KMAX in [22:16], KLEN in [14:8], NSYM in [4:2], B32ST in [1:0] (10_state.md R24). -/
def b32statWord (s : State) : Word := 0#9 ++ s.kmax ++ 0#1 ++ s.klen ++ 0#3 ++ s.nsym ++ s.b32st.bits

/-- DSTAT: MERR in bit 1, DV in bit 0 (10_state.md R26). -/
def dstatWord (s : State) : Word := 0#30 ++ BitVec.ofBool s.merr ++ BitVec.ofBool s.dv

/-- TRES: TLEN in [11:8], TOFF in [3:0] (10_state.md R27). -/
def tresWord (s : State) : Word := 0#20 ++ s.tlen ++ 0#4 ++ s.toff

/-- TRAW: the 31-bit value under a bit that reads 0 (10_state.md R28). -/
def trawWord (s : State) : Word := 0#1 ++ s.traw

/-- CNT_LO: COUNTER[31:0] (10_state.md R25). -/
def cntLoWord (s : State) : Word := s.counter.extractLsb' 0 32

/-- CNT_HI: COUNTER[63:32] (10_state.md R25). -/
def cntHiWord (s : State) : Word := s.counter.extractLsb' 32 32

end Sys2Proof.Machine
end

