-- ==== Sys2Proof/Machine/Bus.lean ====
section
/-! DEFINITION. The bus slave port: the register map (20_memory.md R53), what an access of each kind does, and the
command that a write to CMD carries. -/

namespace Sys2Proof.Machine

/-- The window offset that a bus address selects, or none where the address is not TOTPCORE's: bus address =
`P_BASE + off`, `0 <= off < 0x200` (20_memory.md R50). -/
def windowOffset (addr : Nat) : Option Nat :=
  if Config.pBase ≤ addr ∧ addr < Config.pBase + Config.windowSize then some (addr - Config.pBase) else none

/-- `MemRead(off, 4)` for an aligned offset: the register map (20_memory.md R53). CMD reads 0 (10_state.md R22),
reserved offsets read 0 (R54). -/
def readWord (off : Nat) (s : State) : Word :=
  if off = 0x004 then statusWord s
  else if off = 0x008 then b32statWord s
  else if off = 0x00C then cntLoWord s
  else if off = 0x010 then cntHiWord s
  else if off = 0x014 then dstatWord s
  else if off = 0x018 then tresWord s
  else if off = 0x01C then trawWord s
  else if off = 0x020 then s.tval
  else if 0x040 ≤ off ∧ off < 0x048 then laneWord s.cb (off - 0x040)
  else if 0x080 ≤ off ∧ off < 0x0C0 then laneWord s.key (off - 0x080)
  else if 0x0C0 ≤ off ∧ off < 0x100 then laneWord s.digest (off - 0x0C0)
  else if 0x100 ≤ off ∧ off < 0x10C then laneWord s.token (off - 0x100)
  else 0

/-- `MemWrite(off, 4, v)` for an aligned offset other than CMD's: CNT_LO, CNT_HI, DSTAT and DIGEST take the value,
and every other write changes nothing (20_memory.md R55, R62; 10_state.md R25, R26, R31). -/
def writeWord (off : Nat) (v : Word) (s : State) : State :=
  if off = 0x00C then s.setCounter (cntHiWord s ++ v)
  else if off = 0x010 then s.setCounter (v ++ cntLoWord s)
  else if off = 0x014 then s.setDstat (v.getLsbD 0) (v.getLsbD 1)
  else if 0x0C0 ≤ off ∧ off < 0x100 then s.setDigest (writeLanes s.digest (off - 0x0C0) v)
  else s

/-- The command that a word written to CMD carries; an illegal word only sets ERR (30_encoding.md R84 to R86). -/
def runWord (w : Word) (s : State) : Host.Outcome State Fault Refusal :=
  match decode w with
  | .ok i => exec i s
  | .error _ => .next (finish .illegal s)

/-- The outcome with a bus response recorded in its next state (log 2). -/
def withResponse (r : Response) : Host.Outcome State Fault Refusal → Host.Outcome State Fault Refusal
  | .next t => .next (t.setResponse (some r))
  | .fault f => .fault f
  | .refused f => .refused f

/-- An access that is not aligned and exactly 32 bits wide gets a bus error (20_memory.md R51, R52). -/
def Access.isBusError (a : Access) : Bool := decide (a.size ≠ 4) || decide (a.off % 4 ≠ 0)

/-- The response to an access: a read returns data, which is 0 where it gets a bus error (20_memory.md R51, R52). -/
def Access.response (a : Access) (s : State) : Response where
  master := a.master
  busError := a.isBusError
  data := match a.kind with
    | .read => some (if a.isBusError then 0 else readWord a.off s)
    | .write _ => none

/-- What an accepted access does to the state: a read nothing, a write to CMD its command, another write `writeWord`
(20_memory.md R57, R62). -/
def performAccess (a : Access) (s : State) : Host.Outcome State Fault Refusal :=
  match a.kind with
  | .read => .next s
  | .write v => if a.off = 0x000 then runWord v s else .next (writeWord a.off v s)

/-- Serve one access completely (20_memory.md R57, R58). A bus error changes no state element and the block goes on
(R64; log 4). An offset that is not TOTPCORE's is a fault (R50; log 5). -/
def serveAccess (a : Access) (s : State) : Host.Outcome State Fault Refusal :=
  if Config.windowSize ≤ a.off then .fault .outsideWindow
  else withResponse (a.response s) (if a.isBusError then .next s else performAccess a s)

/-- Take the next input (log 1): an access is served, a hardware reset resets (70_reset_and_hazards.md R191), and with
nothing waiting TOTPCORE waits, unchanged (R192; log 3). -/
def takeInput (s : State) : Host.Outcome State Fault Refusal :=
  match s.inputs with
  | [] => .next s
  | .access a :: rest => serveAccess a (s.setInputs rest)
  | .hardwareReset :: rest => .next (hardwareReset (s.setInputs rest))

/-- The bus access that issues a command word: an aligned 32-bit write to CMD (30_encoding.md R80). -/
def commandWrite (m : Master) (w : Word) : Access := ⟨m, 0x000, 4, .write w⟩

end Sys2Proof.Machine
end

