-- ==== Sys2Proof/Machine/Step.lean ====
section
/-! DEFINITION. One step of TOTPCORE, and where a program's next command stands. -/

namespace Sys2Proof.Machine

/-- One step: the next input taken completely (20_memory.md R57, R58; log 1). -/
def step (s : State) : Host.Outcome State Fault Refusal := takeInput s

/-- The state with a command word as the very next input, written to CMD by the Host: TOTPCORE fetches nothing, and
its program is the Host's sequence of writes to CMD (10_state.md R21; log 1). Bits above `nbits` are 0. -/
def State.withFetchWord (s : State) (nbits w : Nat) : State :=
  s.setInputs (.access (commandWrite .host (BitVec.ofNat 32 (w % 2 ^ nbits))) :: s.inputs)

end Sys2Proof.Machine
end

