-- ==== Sys2Proof/Safety.lean ====
section
/-! DEFINITION. The terms that claims use: the state elements by unit, what the last input was, the invariants the spec
gives, safe inputs, runs of commands, and the valid prefix of a base32 text. -/

namespace Sys2Proof.Machine

/-! ### The state by unit -/

/-- The elements of the base32 decoder (10_state.md R24, R30, R35). -/
def State.decoderPart (s : State) :=
  (s.b32st, s.nsym, s.klen, s.kmax, s.acc, s.key)

/-- The elements of the digest handshake (10_state.md R26, R33). -/
def State.digestPart (s : State) := (s.dv, s.merr, s.digest)

/-- The elements that hold a token (10_state.md R23, R27 to R29, R34). -/
def State.tokenPart (s : State) := (s.tvalid, s.tlen, s.toff, s.traw, s.tval, s.token)

/-- The state the spec gives the machine, with the model's own two fields blanked. -/
def State.elements (s : State) : State := { s with inputs := [], response := none }

/-! ### What an input did -/

/-- The next input is a command write whose word decodes to `i` (30_encoding.md R80, R84). -/
def NextRuns (s : State) (i : Instr) : Prop :=
  ∃ m w rest, s.inputs = .access (commandWrite m w) :: rest ∧ decode w = .ok i

/-- The next input is a command write, of whatever word (30_encoding.md R80). -/
def NextIsCommand (s : State) : Prop :=
  ∃ m w rest, s.inputs = .access (commandWrite m w) :: rest

/-- The next input is a 32-bit write at a window offset. -/
def NextWrites (s : State) (off : Nat) : Prop :=
  ∃ m v rest, s.inputs = .access ⟨m, off, 4, .write v⟩ :: rest

/-- The next input resets the state: SRST or hardware reset (44_control.md R161, 70_reset_and_hazards.md R191). -/
def NextResets (s : State) : Prop :=
  NextRuns s .srst ∨ ∃ rest, s.inputs = .hardwareReset :: rest

/-- Every access to come names an offset of the window (20_memory.md R50). -/
def InWindow (s : State) : Prop := ∀ a, Input.access a ∈ s.inputs → a.off < Config.windowSize

/-! ### Invariants -/

/-- The decoder's invariants of 10_state.md R36, with the bound on ACC of R35 and the zero tail of KEY of R30, which
the spec derives from its command rules. -/
structure DecoderInv (s : State) : Prop where
  klen_le : s.klen.toNat ≤ s.kmax.toNat
  kmax_le : s.kmax.toNat ≤ Config.keyMax
  idle : s.b32st = .idle → s.nsym = 0 ∧ s.acc = 0 ∧ s.klen = 0 ∧ s.kmax = 0
  active : s.b32st = .active → s.klen.toNat < s.kmax.toNat
  ended : s.b32st = .stopped ∨ s.b32st = .finished → s.nsym = 0 ∧ s.acc = 0
  acc_lt : s.acc.toNat < 2 ^ (5 * s.nsym.toNat)
  key_tail : ∀ i, s.klen.toNat ≤ i → byteAt s.key i = 0

/-- The token invariants of 10_state.md R37, which the spec derives from TRUNC's rules. TRAW < 2^31 holds by TRAW's
width. -/
structure TokenInv (s : State) : Prop where
  tlen_le : s.tlen.toNat ≤ Config.digitsMax
  token_tail : ∀ i, s.tlen.toNat ≤ i → byteAt s.token i = 0
  tval_lt : 1 ≤ s.tlen.toNat → s.tval.toNat < 10 ^ s.tlen.toNat
  tval_eq : 1 ≤ s.tlen.toNat → s.tval.toNat = s.traw.toNat % 10 ^ s.tlen.toNat

/-- A token that is shown valid is whole: TOKEN[0..TLEN-1] are the decimal digits of TVAL, in ASCII
(10_state.md R23, R34; 43_truncate.md R148). -/
structure TokenShown (s : State) : Prop where
  nonempty : s.tvalid = true → 1 ≤ s.tlen.toNat
  tlen_le : s.tlen.toNat ≤ Config.digitsMax
  digits : ∀ i, i < s.tlen.toNat →
    (byteAt s.token i).toNat = 0x30 + s.tval.toNat / 10 ^ (s.tlen.toNat - 1 - i) % 10

/-! ### Runs of commands -/

/-- Run commands one after the other, stopping at the first that gives no next state. -/
def runInstrs : List Instr → State → Host.Outcome State Fault Refusal
  | [], s => .next s
  | i :: is, s =>
    match exec i s with
    | .next t => runInstrs is t
    | .fault f => .fault f
    | .refused r => .refused r

/-! ### Base32 texts -/

/-- The alphabet of 41_base32.md R101 as ASCII codes, in the order of its string: 'A' to 'Z', then '2' to '7'. -/
def alphabet : List Byte :=
  (List.range 26).map (fun i => BitVec.ofNat 8 (0x41 + i)) ++ (List.range 6).map (fun i => BitVec.ofNat 8 (0x32 + i))

/-- The symbols of the longest prefix of a text that lies in the alphabet (41_base32.md R115). -/
def validPrefix : List Byte → List (BitVec 5)
  | [] => []
  | c :: cs =>
    match sym c with
    | some v => v :: validPrefix cs
    | none => []

/-- `V`: the symbols as one number, the first in the most significant 5 bits (41_base32.md R115). -/
def symbolsValue (vs : List (BitVec 5)) : Nat := vs.foldl (fun V v => V * 2 ^ 5 + v.toNat) 0

end Sys2Proof.Machine
end

