-- ==== Sys2Proof/Certificates/Slice0/Obligations.lean ====
section
/-! DEFINITION. The statements about TOTPCORE for the provers. Each docstring names the rule of spec/ that it formalises,
or says that it is derived or rests on a choice of the model. -/

namespace Sys2Proof.Claims

open Sys2Proof.Machine

/-- The words that 30_encoding.md R85 and R86 call illegal, by their fields: RSV != 0; a reserved OP; or ARG != 0 in
NOP, B32_FINISH, CTR_ENC or SRST. -/
def IllegalWord (w : Word) : Prop :=
  let op := (w.extractLsb' 0 8).toNat
  w.extractLsb' 16 16 ≠ 0 ∨ (0x06 ≤ op ∧ op ≤ 0x0E) ∨ 0x10 ≤ op ∨
    ((op = 0x00 ∨ op = 0x03 ∨ op = 0x04 ∨ op = 0x0F) ∧ w.extractLsb' 8 8 ≠ 0)

/-- The table of 70_reset_and_hazards.md R190: every element, and every word of the registers and buffers. -/
def ResetTable (t : State) : Prop :=
  t.err = .ok ∧ t.tvalid = false ∧ krdy t = false ∧ t.b32st = .idle ∧ t.nsym = 0 ∧ t.klen = 0 ∧ t.kmax = 0 ∧
  t.acc = 0 ∧ t.counter = 0 ∧ t.dv = false ∧ t.merr = false ∧ t.toff = 0 ∧ t.tlen = 0 ∧ t.traw = 0 ∧ t.tval = 0 ∧
  (∀ i, i < 64 → byteAt t.key i = 0) ∧ (∀ i, i < 8 → byteAt t.cb i = 0) ∧
  (∀ i, i < 20 → byteAt t.digest i = 0) ∧ (∀ i, i < 10 → byteAt t.token i = 0) ∧
  (∀ off, off % 4 = 0 → 0x004 ≤ off → off < 0x10C → readWord off t = 0)

/-- `key` and `klen` are the key and KLEN of `s` with the first bytes of a number appended: the number `V` has `bits`
bits, its whole bytes are taken from the top, and as many are kept as KMAX has space for (41_base32.md R105, R114). -/
def Appended (s : State) (V bits : Nat) (key : Vector Byte 64) (klen : BitVec 7) : Prop :=
  klen.toNat = min (s.klen.toNat + bits / 8) s.kmax.toNat ∧
  ∀ i, (byteAt key i).toNat =
    if s.klen.toNat ≤ i ∧ i < klen.toNat then V / 2 ^ (bits - 8 * (i - s.klen.toNat + 1)) % 256
    else (byteAt s.key i).toNat

/-- KLEN, KMAX and the key's capacity are ordered as 10_state.md R36 says; no run leaves this. -/
def CapacityOk (s : State) : Prop := s.klen.toNat ≤ s.kmax.toNat ∧ s.kmax.toNat ≤ 64

end Sys2Proof.Claims

open Sys2Proof Sys2Proof.Machine Sys2Proof.Claims

/-! ### Encoding -/

/-- Decoding the word of a well-formed command gives the command back, with its operand (30_encoding.md R81, R83,
R88). -/
def Obligations.DecodeOfEncode : Prop :=
  ∀ i : Instr, i.wellFormed = true → decode (encode i) = .ok i

/-- A word that decodes is the word of a well-formed command: each command word has one reading (30_encoding.md R81,
R83). -/
def Obligations.EncodeOfDecode : Prop :=
  ∀ (w : Word) (i : Instr), decode w = .ok i → i.wellFormed = true ∧ encode i = w

/-- 30_encoding.md R83: a word is the command of a row exactly when `w & mask = match`, with ARG in bits [15:8]; a word
with RSV = 0 and a reserved OP is no command. -/
def Obligations.DecodeFollowsTheOpcodeMap : Prop :=
  ∀ w : Word,
    (decode w = .ok .nop ↔ w &&& 0xFFFFFFFF = 0x00000000) ∧
    (∀ m, decode w = .ok (.b32Init m) ↔ w &&& 0xFFFF00FF = 0x00000001 ∧ m = (w.extractLsb' 8 8).toNat) ∧
    (∀ c, decode w = .ok (.b32Push c) ↔ w &&& 0xFFFF00FF = 0x00000002 ∧ c = w.extractLsb' 8 8) ∧
    (decode w = .ok .b32Finish ↔ w &&& 0xFFFFFFFF = 0x00000003) ∧
    (decode w = .ok .ctrEnc ↔ w &&& 0xFFFFFFFF = 0x00000004) ∧
    (∀ d, decode w = .ok (.trunc d) ↔ w &&& 0xFFFF00FF = 0x00000005 ∧ d = (w.extractLsb' 8 8).toNat) ∧
    (decode w = .ok .srst ↔ w &&& 0xFFFFFFFF = 0x0000000F) ∧
    (w.extractLsb' 16 16 = 0 →
      (0x06 ≤ (w.extractLsb' 0 8).toNat ∧ (w.extractLsb' 0 8).toNat ≤ 0x0E ∨ 0x10 ≤ (w.extractLsb' 0 8).toNat) →
      ∃ e, decode w = .error e)

/-- 30_encoding.md R87: every 32-bit word is exactly one command, or illegal under R85 and R86. -/
def Obligations.EveryWordIsOneCommandOrIllegal : Prop :=
  ∀ w : Word, ((∃ i, decode w = .ok i) ↔ ¬ IllegalWord w) ∧
    (∀ i j, decode w = .ok i → decode w = .ok j → i = j)

/-- 30_encoding.md R86: the only effect of a word with RSV != 0 or a reserved OP is ERR <- 1 (ILLEGAL). -/
def Obligations.IllegalWordsOnlySetErr : Prop :=
  ResultCode.illegal.bits = 1 ∧ ∀ (w : Word) (s : State),
    (w.extractLsb' 16 16 ≠ 0 ∨ (0x06 ≤ (w.extractLsb' 0 8).toNat ∧ (w.extractLsb' 0 8).toNat ≤ 0x0E) ∨
      0x10 ≤ (w.extractLsb' 0 8).toNat) →
    runWord w s = .next { s with err := .illegal }

/-- 30_encoding.md R85: NOP, B32_FINISH, CTR_ENC and SRST with ARG != 0 have the result ILLEGAL and no other effect. -/
def Obligations.ReservedArgumentIsIllegal : Prop :=
  ResultCode.illegal.bits = 1 ∧ ∀ (w : Word) (s : State), w.extractLsb' 16 16 = 0 →
    (w.extractLsb' 0 8 = 0x00 ∨ w.extractLsb' 0 8 = 0x03 ∨ w.extractLsb' 0 8 = 0x04 ∨ w.extractLsb' 0 8 = 0x0F) →
    w.extractLsb' 8 8 ≠ 0 → runWord w s = .next { s with err := .illegal }

/-- The example assemblies after 30_encoding.md R90, decoded. -/
def Obligations.ExampleWordsDecode : Prop :=
  decode 0x00004702 = .ok (.b32Push 0x47) ∧ decode 0x00004001 = .ok (.b32Init 64) ∧
  decode 0x00000805 = .ok (.trunc 8) ∧ decode 0x00000605 = .ok (.trunc 6) ∧ decode 0x00000003 = .ok .b32Finish ∧
  decode 0x00000004 = .ok .ctrEnc ∧ decode 0x0000000F = .ok .srst ∧ decode 0x00000000 = .ok .nop

/-- The count after 30_encoding.md R87: 772 of the 2^32 words are commands. -/
def Obligations.LegalWordsNumber772 : Prop :=
  ∃ l : List Word, l.Nodup ∧ l.length = 772 ∧ ∀ w, w ∈ l ↔ ∃ i, decode w = .ok i

/-! ### Steps, reset and the bus -/

/-- A write to CMD runs the command its word decodes to, and the response comes after it (20_memory.md R57). -/
def Obligations.CommandWriteRunsItsCommand : Prop :=
  ∀ (s : State) (m : Master) (w : Word) (i : Instr) (rest : List Input),
    s.inputs = .access (commandWrite m w) :: rest → decode w = .ok i →
    step s = withResponse ⟨m, false, none⟩ (exec i { s with inputs := rest })

/-- Every command, and every command word, completes in every state: no command hangs, stops or is refused
(70_reset_and_hazards.md R198, 60_exceptions.md R172). -/
def Obligations.EveryCommandCompletes : Prop :=
  (∀ (i : Instr) (s : State), ∃ t, exec i s = .next t) ∧ (∀ (w : Word) (s : State), ∃ t, runWord w s = .next t)

/-- A run of any length over accesses that name window offsets never stops (60_exceptions.md R172: TOTPCORE never
traps). -/
def Obligations.RunsInsideTheWindowNeverStop : Prop :=
  ∀ (n : Nat) (s : State), InWindow s → ∃ t, Host.Core.run Sys2Proof.core n s = .next t ∧ InWindow t

/-- The model's choice of log 5: a step stops only on an access at or above offset 0x200, which 20_memory.md R50 leaves
outside the spec, and is never refused. -/
def Obligations.StepStopsOnlyOutsideTheWindow : Prop :=
  (∀ (s : State) (f : Fault), step s = .fault f ↔
    f = .outsideWindow ∧ ∃ a rest, s.inputs = .access a :: rest ∧ 0x200 ≤ a.off) ∧
  (∀ (s : State) (r : Refusal), step s ≠ .refused r)

/-- With no access waiting TOTPCORE waits, unchanged (70_reset_and_hazards.md R192; the idle step is the model's choice
of log 3). -/
def Obligations.WaitingChangesNothing : Prop :=
  ∀ s : State, s.inputs = [] → step s = .next s

/-- 70_reset_and_hazards.md R191: a hardware reset sets the reset state, and nothing that happened before survives. The
accesses to come are the model's own (log 12). -/
def Obligations.HardwareResetSetsTheResetState : Prop :=
  ∀ (s : State) (rest : List Input), s.inputs = .hardwareReset :: rest →
    step s = .next { State.reset with inputs := rest }

/-- 70_reset_and_hazards.md R190: the reset value of every element, at reset, after SRST and after a hardware reset. -/
def Obligations.ResetValues : Prop :=
  ResetTable State.reset ∧
  (∀ s : State, ∃ t, exec .srst s = .next t ∧ ResetTable t) ∧
  (∀ (s : State) (rest : List Input), s.inputs = .hardwareReset :: rest → ∃ t, step s = .next t ∧ ResetTable t)

/-- 44_control.md R162: SRST writes the state that hardware reset writes, with the same values, the elements that bus
writes set among them. The model's own two fields are no state of TOTPCORE (log 1, log 2). -/
def Obligations.SrstIsAReset : Prop :=
  (∀ s : State, exec .srst s = .next { State.reset with inputs := s.inputs, response := s.response }) ∧
  (∀ (s s' t t' : State) (rest : List Input), exec .srst s = .next t → s'.inputs = .hardwareReset :: rest →
    step s' = .next t' → t.elements = t'.elements)

/-- No bus read tells an SRST and a hardware reset apart, an SRST right after reset changes nothing, and every aligned
read of the window then returns 0 (44_control.md R161, R162 and 70_reset_and_hazards.md R190, derived there). -/
def Obligations.ResetsCannotBeToldApart : Prop :=
  (∀ (s s' t t' : State) (rest : List Input), exec .srst s = .next t → s'.inputs = .hardwareReset :: rest →
    step s' = .next t' → ∀ off, readWord off t = readWord off t') ∧
  exec .srst State.reset = .next State.reset ∧
  (∀ off, off % 4 = 0 → off < 0x200 → readWord off State.reset = 0)

/-- Right after reset nothing needs initialising (70_reset_and_hazards.md R194, derived there; R193 step 1): CTR_ENC
gives zero bytes, TRUNC with a legal digit count NO_DIGEST, B32_INIT, NOP and SRST work, B32_PUSH and B32_FINISH give
SEQ. -/
def Obligations.NothingNeedsInitialising : Prop :=
  (∃ t, exec .ctrEnc State.reset = .next t ∧ t.err = .ok ∧ ∀ i, byteAt t.cb i = 0) ∧
  (∀ d, 1 ≤ d → d ≤ 10 → ∃ t, exec (.trunc d) State.reset = .next t ∧ t.err = .noDigest) ∧
  (∀ m, m ≤ 64 → ∃ t, exec (.b32Init m) State.reset = .next t ∧ t.err = .ok ∧ t.kmax.toNat = m) ∧
  (∃ t, exec .nop State.reset = .next t ∧ t.err = .ok) ∧ (∃ t, exec .srst State.reset = .next t ∧ t.err = .ok) ∧
  (∀ c, ∃ t, exec (.b32Push c) State.reset = .next t ∧ t.err = .seq) ∧
  (∃ t, exec .b32Finish State.reset = .next t ∧ t.err = .seq)

/-- 20_memory.md R62: no read changes state, and each write has its one effect; a write to COUNTER, DSTAT or DIGEST
starts no computation. -/
def Obligations.BusAccessesHaveOnlyTheirEffect : Prop :=
  (∀ (s : State) (a : Access) (rest : List Input), s.inputs = .access a :: rest → a.off < 0x200 → a.kind = .read →
    ∃ r, step s = .next { s with inputs := rest, response := some r }) ∧
  (∀ (s : State) (m : Master) (off : Nat) (v : Word) (rest : List Input),
    s.inputs = .access ⟨m, off, 4, .write v⟩ :: rest → off < 0x200 → off % 4 = 0 →
    (off = 0x000 → step s = withResponse ⟨m, false, none⟩ (runWord v { s with inputs := rest })) ∧
    (off = 0x00C → step s = .next { s with inputs := rest, response := some ⟨m, false, none⟩,
                                           counter := s.counter.extractLsb' 32 32 ++ v }) ∧
    (off = 0x010 → step s = .next { s with inputs := rest, response := some ⟨m, false, none⟩,
                                           counter := v ++ s.counter.extractLsb' 0 32 }) ∧
    (off = 0x014 → step s = .next { s with inputs := rest, response := some ⟨m, false, none⟩,
                                           dv := v.getLsbD 0, merr := v.getLsbD 1 }) ∧
    (0x0C0 ≤ off → off < 0x100 →
      ∃ digest, step s = .next { s with inputs := rest, response := some ⟨m, false, none⟩, digest := digest } ∧
        ∀ j, byteAt digest j = if off - 0x0C0 ≤ j ∧ j < off - 0x0C0 + 4 ∧ j < 20 then
          v.extractLsb' (8 * (j - (off - 0x0C0))) 8 else byteAt s.digest j) ∧
    (off ≠ 0x000 → off ≠ 0x00C → off ≠ 0x010 → off ≠ 0x014 → ¬ (0x0C0 ≤ off ∧ off < 0x100) →
      step s = .next { s with inputs := rest, response := some ⟨m, false, none⟩ }))

/-- 20_memory.md R51, R52, R64: an access that is misaligned or not exactly 32 bits wide gets a bus error response to
its master, read data 0, and changes no state, ERR among it. -/
def Obligations.BusErrorsChangeNothing : Prop :=
  ∀ (s : State) (a : Access) (rest : List Input), s.inputs = .access a :: rest → a.off < 0x200 →
    (a.off % 4 ≠ 0 ∨ a.size ≠ 4) →
    step s = .next { s with
      inputs := rest, response := some ⟨a.master, true, if a.kind = .read then some 0 else none⟩ }

/-- A read returns the word of the state left by every access before it, and no bus error (20_memory.md R58). -/
def Obligations.ReadsReturnTheCurrentWord : Prop :=
  ∀ (s : State) (m : Master) (off : Nat) (rest : List Input), s.inputs = .access ⟨m, off, 4, .read⟩ :: rest →
    off < 0x200 → off % 4 = 0 →
    step s = .next { s with inputs := rest, response := some ⟨m, false, some (readWord off s)⟩ }

/-- The register map's words, field by field (20_memory.md R53; 10_state.md R22 to R29). -/
def Obligations.RegisterFieldsReadBack : Prop :=
  ∀ s : State,
    readWord 0x000 s = 0 ∧
    (readWord 0x004 s).extractLsb' 0 4 = s.err.bits ∧
    ((readWord 0x004 s).getLsbD 4 = true ↔ s.b32st = .finished ∧ 0 < s.klen.toNat) ∧
    (readWord 0x004 s).getLsbD 5 = s.tvalid ∧
    (readWord 0x008 s).extractLsb' 0 2 = s.b32st.bits ∧ (readWord 0x008 s).extractLsb' 2 3 = s.nsym ∧
    (readWord 0x008 s).extractLsb' 8 7 = s.klen ∧ (readWord 0x008 s).extractLsb' 16 7 = s.kmax ∧
    readWord 0x00C s = s.counter.extractLsb' 0 32 ∧ readWord 0x010 s = s.counter.extractLsb' 32 32 ∧
    (readWord 0x014 s).getLsbD 0 = s.dv ∧ (readWord 0x014 s).getLsbD 1 = s.merr ∧
    (readWord 0x018 s).extractLsb' 0 4 = s.toff ∧ (readWord 0x018 s).extractLsb' 8 4 = s.tlen ∧
    (readWord 0x01C s).toNat = s.traw.toNat ∧ readWord 0x020 s = s.tval

/-- 20_memory.md R54 and 10_state.md R31: reserved offsets read 0 and ignore writes, reserved bits read 0 and ignore
writes, and a write to a read-only register or buffer changes nothing; none of these gets a bus error. -/
def Obligations.ReservedAndReadOnlyPlacesAreHarmless : Prop :=
  (∀ (s : State) (m : Master) (off : Nat) (k : AccessKind) (rest : List Input),
    s.inputs = .access ⟨m, off, 4, k⟩ :: rest → off % 4 = 0 →
    ((0x024 ≤ off ∧ off < 0x040) ∨ (0x048 ≤ off ∧ off < 0x080) ∨ (0x10C ≤ off ∧ off < 0x200)) →
    step s = .next { s with inputs := rest, response := some ⟨m, false, if k = .read then some 0 else none⟩ }) ∧
  (∀ (s : State) (m : Master) (off : Nat) (v : Word) (rest : List Input),
    s.inputs = .access ⟨m, off, 4, .write v⟩ :: rest → off % 4 = 0 →
    (off = 0x004 ∨ off = 0x008 ∨ off = 0x018 ∨ off = 0x01C ∨ off = 0x020 ∨ (0x040 ≤ off ∧ off < 0x048) ∨
      (0x080 ≤ off ∧ off < 0x0C0) ∨ (0x100 ≤ off ∧ off < 0x10C)) →
    step s = .next { s with inputs := rest, response := some ⟨m, false, none⟩ }) ∧
  (∀ s : State, (readWord 0x004 s).extractLsb' 6 26 = 0 ∧ (readWord 0x008 s).extractLsb' 5 3 = 0 ∧
    (readWord 0x008 s).getLsbD 15 = false ∧ (readWord 0x008 s).extractLsb' 23 9 = 0 ∧
    (readWord 0x014 s).extractLsb' 2 30 = 0 ∧ (readWord 0x018 s).extractLsb' 4 4 = 0 ∧
    (readWord 0x018 s).extractLsb' 12 20 = 0 ∧ (readWord 0x01C s).getLsbD 31 = false) ∧
  (∀ (s : State) (v : Word), writeWord 0x014 v s = writeWord 0x014 (v &&& 0x00000003) s)

/-- 20_memory.md R55: lane j of the word at an offset of a buffer window is the buffer byte at that offset plus j, or 0
where no buffer byte is behind it; a DIGEST write sets the bytes of its lanes that lie in DIGEST. -/
def Obligations.BufferLanesAreLittleEndian : Prop :=
  (∀ (s : State) (off j : Nat), off % 4 = 0 → j < 4 →
    (0x040 ≤ off → off < 0x048 → (readWord off s).extractLsb' (8 * j) 8 = s.cb[off - 0x040 + j]?.getD 0) ∧
    (0x080 ≤ off → off < 0x0C0 → (readWord off s).extractLsb' (8 * j) 8 = s.key[off - 0x080 + j]?.getD 0) ∧
    (0x0C0 ≤ off → off < 0x100 → (readWord off s).extractLsb' (8 * j) 8 = s.digest[off - 0x0C0 + j]?.getD 0) ∧
    (0x100 ≤ off → off < 0x10C → (readWord off s).extractLsb' (8 * j) 8 = s.token[off - 0x100 + j]?.getD 0)) ∧
  (∀ (s : State) (off : Nat) (v : Word), off % 4 = 0 → 0x0C0 ≤ off → off < 0x100 →
    ∃ digest, writeWord off v s = { s with digest := digest } ∧
      ∀ n (h : n < 20), digest[n] = if off - 0x0C0 ≤ n ∧ n < off - 0x0C0 + 4 then
        v.extractLsb' (8 * (n - (off - 0x0C0))) 8 else s.digest[n])

/-- 10_state.md R25: CNT_LO and CNT_HI are the halves of COUNTER, each written without the other; only CTR_ENC reads
COUNTER, and no command writes it except SRST. -/
def Obligations.CounterRegister : Prop :=
  (∀ s : State, readWord 0x010 s ++ readWord 0x00C s = s.counter) ∧
  (∀ (s : State) (v : Word),
    readWord 0x00C (writeWord 0x00C v s) = v ∧ readWord 0x010 (writeWord 0x00C v s) = readWord 0x010 s ∧
    readWord 0x010 (writeWord 0x010 v s) = v ∧ readWord 0x00C (writeWord 0x010 v s) = readWord 0x00C s) ∧
  (∀ (i : Instr) (s t : State) (c : BitVec 64), i ≠ .ctrEnc → exec i s = .next t →
    ∃ t', exec i { s with counter := c } = .next t' ∧ { t' with counter := t.counter } = t) ∧
  (∀ (i : Instr) (s t : State), i ≠ .srst → exec i s = .next t → t.counter = s.counter)

/-- 10_state.md R26: DSTAT's bits, what a write to it sets, and who else writes DV and MERR. -/
def Obligations.DigestStatusRegister : Prop :=
  (∀ s : State, (readWord 0x014 s).toNat = s.dv.toNat + 2 * s.merr.toNat) ∧
  (∀ (s : State) (v : Word), writeWord 0x014 v s = { s with dv := v.getLsbD 0, merr := v.getLsbD 1 }) ∧
  (∀ s t : State, step s = .next t → t.dv ≠ s.dv →
    NextWrites s 0x014 ∨ NextResets s ∨ (t.dv = false ∧ t.err = .ok ∧ ∃ d, NextRuns s (.trunc d))) ∧
  (∀ (s t : State) (d : Nat), exec (.trunc d) s = .next t → t.err = .ok → t.dv = false) ∧
  (∀ s t : State, step s = .next t → t.merr ≠ s.merr → NextWrites s 0x014 ∨ NextResets s)

/-- Which steps can change each element: the 'written by' columns and the 'only' sentences of 10_state.md R23 to R35
and 60_exceptions.md R171. -/
def Obligations.EveryElementHasItsWriters : Prop :=
  ∀ s t : State, step s = .next t → NextResets s ∨
    ((t.err ≠ s.err → NextIsCommand s) ∧
     (t.tvalid ≠ s.tvalid → ∃ d, NextRuns s (.trunc d)) ∧
     (t.kmax ≠ s.kmax → ∃ m, NextRuns s (.b32Init m)) ∧
     (t.decoderPart ≠ s.decoderPart →
       (∃ m, NextRuns s (.b32Init m)) ∨ (∃ c, NextRuns s (.b32Push c)) ∨ NextRuns s .b32Finish) ∧
     (t.counter ≠ s.counter → NextWrites s 0x00C ∨ NextWrites s 0x010) ∧
     (t.cb ≠ s.cb → NextRuns s .ctrEnc) ∧
     (t.dv ≠ s.dv → NextWrites s 0x014 ∨ (t.dv = false ∧ t.err = .ok ∧ ∃ d, NextRuns s (.trunc d))) ∧
     (t.merr ≠ s.merr → NextWrites s 0x014) ∧
     (t.digest ≠ s.digest → ∃ off, 0x0C0 ≤ off ∧ off < 0x0D4 ∧ NextWrites s off) ∧
     (t.token ≠ s.token ∨ t.tlen ≠ s.tlen ∨ t.toff ≠ s.toff ∨ t.traw ≠ s.traw ∨ t.tval ≠ s.tval →
       t.err = .ok ∧ ∃ d, NextRuns s (.trunc d)))

/-- 20_memory.md R63, derived there: repeating a read returns the same, repeating a write to a register other than CMD
leaves the same state, and some command is not idempotent. -/
def Obligations.ReadsAndRegisterWritesAreIdempotent : Prop :=
  (∀ (s t u : State) (a : Access) (rest : List Input), s.inputs = .access a :: .access a :: rest → a.kind = .read →
    step s = .next t → step t = .next u → u.response = t.response) ∧
  (∀ (s t u : State) (m : Master) (off : Nat) (v : Word) (rest : List Input),
    s.inputs = .access ⟨m, off, 4, .write v⟩ :: .access ⟨m, off, 4, .write v⟩ :: rest → off ≠ 0x000 →
    step s = .next t → step t = .next u → u.elements = t.elements) ∧
  (∃ (w : Word) (s t u : State), runWord w s = .next t ∧ runWord w t = .next u ∧ u ≠ t)

/-- TOTPCORE treats an access the same whichever master makes it: only the response's addressee differs
(20_memory.md R56, 60_exceptions.md R179). -/
def Obligations.MastersAreNotDistinguished : Prop :=
  ∀ (s t : State) (a : Access) (m : Master) (rest : List Input), s.inputs = .access a :: rest → step s = .next t →
    ∃ r, t.response = some r ∧ r.master = a.master ∧
      step { s with inputs := .access { a with master := m } :: rest } =
        .next { t with response := some { r with master := m } }

/-- 20_memory.md R50: the bus address `P_BASE + off` selects the offset `off` below 0x200, no other address is
TOTPCORE's, and P_BASE is a multiple of 0x200 (00_scope.md R6), whatever the platform's choice (log 10). -/
def Obligations.BusAddressesSelectOffsets : Prop :=
  (∀ addr off : Nat, windowOffset addr = some off ↔ addr = Config.pBase + off ∧ off < 0x200) ∧
  Config.pBase % 0x200 = 0

/-! ### Invariants -/

/-- The decoder's invariants (10_state.md R36, with R30's zero tail of KEY and R35's bound on ACC; the spec marks them as
derived) are kept by every step. -/
def Obligations.StepKeepsDecoderInv : Prop :=
  ∀ s t : State, DecoderInv s → step s = .next t → DecoderInv t

/-- The token invariants (10_state.md R37, derived there) are kept by every step. -/
def Obligations.StepKeepsTokenInv : Prop :=
  ∀ s t : State, TokenInv s → step s = .next t → TokenInv t

/-- Every step keeps this: a token that is shown valid is the decimal string of TVAL (10_state.md R23, R34;
43_truncate.md R148). -/
def Obligations.StepKeepsTokenShown : Prop :=
  ∀ s t : State, TokenShown s → step s = .next t → TokenShown t

/-- The three invariants hold at reset. -/
def Obligations.InvariantsHoldAtReset : Prop :=
  DecoderInv State.reset ∧ TokenInv State.reset ∧ TokenShown State.reset

/-! ### The base32 decoder -/

/-- 41_base32.md R101, R102: a symbol index is the character's 0-based position in the alphabet, and every other code
has none; lowercase letters, whitespace and '=' among them (R116, R117). -/
def Obligations.SymbolIndexIsAlphabetPosition : Prop :=
  alphabet.length = 32 ∧
  (∀ (c : Byte) (v : BitVec 5), sym c = some v ↔ alphabet[v.toNat]? = some c) ∧
  (∀ c : Byte, sym c = none ↔ ¬ ((0x41 ≤ c.toNat ∧ c.toNat ≤ 0x5A) ∨ (0x32 ≤ c.toNat ∧ c.toNat ≤ 0x37))) ∧
  (∀ c : Byte, (0x61 ≤ c.toNat ∧ c.toNat ≤ 0x7A) ∨ c = 0x3D ∨ c = 0x20 ∨ c = 0x09 ∨ c = 0x0A ∨ c = 0x0D →
    sym c = none)

/-- 41_base32.md R104, R119, with the effect that R103's pseudocode gives: B32_INIT in every state; up to 64 it starts a
decode with all KEY bytes zeroed, above 64 it fails and changes nothing else. -/
def Obligations.InitStartsADecode : Prop :=
  (∀ (s : State) (m : Nat), m ≤ 64 → ∃ key, exec (.b32Init m) s = .next { s with
      key := key, acc := 0, nsym := 0, klen := 0, kmax := BitVec.ofNat 7 m,
      b32st := if m = 0 then .stopped else .active, err := .ok } ∧
    (∀ i, byteAt key i = 0) ∧ (BitVec.ofNat 7 m).toNat = m) ∧
  ResultCode.badMaxlen.bits = 2 ∧
  (∀ (s : State) (m : Nat), 64 < m → exec (.b32Init m) s = .next { s with err := .badMaxlen })

/-- B32_PUSH outside ACTIVE: SEQ in IDLE, ignored with OK in STOPPED and FINISHED (41_base32.md R107). -/
def Obligations.PushOutsideActiveIsIgnored : Prop :=
  ∀ (s : State) (c : Byte),
    (s.b32st = .idle → exec (.b32Push c) s = .next { s with err := .seq }) ∧
    (s.b32st = .stopped ∨ s.b32st = .finished → exec (.b32Push c) s = .next { s with err := .ok })

/-- A symbol that does not complete a group joins ACC at the low end, and NSYM counts it (41_base32.md R107). -/
def Obligations.PushCollectsASymbol : Prop :=
  ∀ (s : State) (c : Byte) (v : BitVec 5), s.b32st = .active → sym c = some v → s.nsym.toNat < 7 →
    ∃ acc nsym, exec (.b32Push c) s = .next { s with acc := acc, nsym := nsym, err := .ok } ∧
      nsym.toNat = s.nsym.toNat + 1 ∧ acc.toNat = (s.acc.toNat * 32 + v.toNat) % 2 ^ 40

/-- 41_base32.md R112, with the capacity rule R114: the 8th symbol packs s0 to s7 into 5 bytes, first symbol in the most
significant bits, appends them to KEY in order while space remains, and stops the decoder where KEY is full. -/
def Obligations.EighthSymbolEmitsTheGroup : Prop :=
  ∀ (s : State) (c : Byte) (s0 s1 s2 s3 s4 s5 s6 s7 : BitVec 5), CapacityOk s → s.b32st = .active → s.nsym = 7 →
    sym c = some s7 → s.acc = 0#5 ++ s0 ++ s1 ++ s2 ++ s3 ++ s4 ++ s5 ++ s6 →
    ∃ key klen, exec (.b32Push c) s = .next { s with
        key := key, klen := klen, acc := 0, nsym := 0,
        b32st := if klen.toNat = s.kmax.toNat then .stopped else .active, err := .ok } ∧
      klen.toNat = min (s.klen.toNat + 5) s.kmax.toNat ∧
      ∀ i, byteAt key i =
        if s.klen.toNat ≤ i ∧ i < klen.toNat then
          match i - s.klen.toNat with
          | 0 => s0 ++ s1.extractLsb' 2 3
          | 1 => s1.extractLsb' 0 2 ++ s2 ++ s3.extractLsb' 4 1
          | 2 => s3.extractLsb' 0 4 ++ s4.extractLsb' 1 4
          | 3 => s4.extractLsb' 0 1 ++ s5 ++ s6.extractLsb' 3 2
          | _ => s6.extractLsb' 0 3 ++ s7
        else byteAt s.key i

/-- 41_base32.md R108: a character outside the alphabet, in ACTIVE, flushes the partial group, stops the decoder with
result OK, and every later B32_PUSH is ignored. No B32_PUSH, whatever it comes after, undoes STOPPED (see also
PushOutsideActiveIsIgnored). -/
def Obligations.NonAlphabetCharacterTerminates : Prop :=
  ∀ (s : State) (c : Byte), CapacityOk s → s.b32st = .active → sym c = none →
    ∃ key klen t, t = { s with key := key, klen := klen, acc := 0, nsym := 0, b32st := .stopped, err := .ok } ∧
      exec (.b32Push c) s = .next t ∧ Appended s s.acc.toNat (5 * s.nsym.toNat) key klen ∧
      ∀ cs : List Byte, runInstrs (cs.map .b32Push) t = .next t

/-- The effect that 41_base32.md R109's pseudocode gives: B32_FINISH gives SEQ in IDLE; in ACTIVE it flushes the partial group; it leaves FINISHED,
and EMPTY_KEY exactly when no key byte was produced, with KRDY exactly when one was. -/
def Obligations.FinishPublishesTheKey : Prop :=
  (∀ s : State, s.b32st = .idle → exec .b32Finish s = .next { s with err := .seq }) ∧
  (∀ s : State, CapacityOk s → s.b32st = .active →
    ∃ key klen t, t = { s with key := key, klen := klen, acc := 0, nsym := 0, b32st := .finished,
                               err := if klen.toNat = 0 then .emptyKey else .ok } ∧
      exec .b32Finish s = .next t ∧ Appended s s.acc.toNat (5 * s.nsym.toNat) key klen ∧
      krdy t = decide (0 < klen.toNat)) ∧
  (∀ s : State, s.b32st = .stopped ∨ s.b32st = .finished →
    ∃ t, t = { s with b32st := .finished, err := if s.klen.toNat = 0 then .emptyKey else .ok } ∧
      exec .b32Finish s = .next t ∧ krdy t = decide (0 < s.klen.toNat))

/-- 41_base32.md R110: a decode that produces no key byte is reported by B32_FINISH with EMPTY_KEY (4), and KRDY stays
0: an empty text, one whose first character is outside the alphabet, one with a valid prefix of one symbol, or a
capacity of 0. -/
def Obligations.EmptyDecodesAreReported : Prop :=
  ResultCode.emptyKey.bits = 4 ∧
  (∀ s t : State, s.b32st ≠ .idle → exec .b32Finish s = .next t → t.klen = 0 → t.err = .emptyKey ∧ krdy t = false) ∧
  (∀ (s : State) (m : Nat) (cs : List Byte), m ≤ 64 → (m = 0 ∨ (validPrefix cs).length ≤ 1) →
    ∃ t, runInstrs (.b32Init m :: (cs.map .b32Push ++ [.b32Finish])) s = .next t ∧
      t.klen = 0 ∧ t.err = .emptyKey ∧ krdy t = false)

/-- 41_base32.md R113: the bytes a partial group of k symbols yields at a flush, and the bits it discards, by the rule's
table; the bytes are the symbols' number cut at the last whole byte. -/
def Obligations.PartialGroupYieldsWholeBytes : Prop :=
  ∀ (s : State) (i : Instr) (vs : List (BitVec 5)), CapacityOk s → s.b32st = .active →
    (i = .b32Finish ∨ ∃ c, i = .b32Push c ∧ sym c = none) →
    s.nsym.toNat = vs.length → s.acc.toNat = symbolsValue vs →
    s.klen.toNat + ([0, 0, 1, 1, 2, 3, 3, 4][vs.length]?.getD 0) ≤ s.kmax.toNat →
    5 * vs.length = 8 * ([0, 0, 1, 1, 2, 3, 3, 4][vs.length]?.getD 0) + ([0, 5, 2, 7, 4, 1, 6, 3][vs.length]?.getD 0) ∧
    ∃ t, exec i s = .next t ∧
      t.klen.toNat = s.klen.toNat + ([0, 0, 1, 1, 2, 3, 3, 4][vs.length]?.getD 0) ∧
      (∀ j, s.klen.toNat ≤ j → j < t.klen.toNat → (byteAt t.key j).toNat =
        symbolsValue vs / 2 ^ (5 * vs.length - 8 * (j - s.klen.toNat + 1)) % 256) ∧
      (∀ j, j < s.klen.toNat → byteAt t.key j = byteAt s.key j)

/-- 41_base32.md R118: the low 5k mod 8 bits of a partial group are discarded without a check: two groups that differ
only in them flush to the same state, at B32_FINISH and at a non-alphabet character. -/
def Obligations.DiscardedBitsAreNotChecked : Prop :=
  ∀ (s : State) (acc : BitVec 40), s.b32st = .active →
    acc.toNat / 2 ^ (5 * s.nsym.toNat % 8) = s.acc.toNat / 2 ^ (5 * s.nsym.toNat % 8) →
    (∃ t, exec .b32Finish s = .next t ∧ exec .b32Finish { s with acc := acc } = .next t) ∧
    (∀ c, sym c = none → ∃ t, exec (.b32Push c) s = .next t ∧ exec (.b32Push c) { s with acc := acc } = .next t)

/-- 41_base32.md R115, derived there: B32_INIT m, one B32_PUSH per character of a text, then B32_FINISH, from any state,
leave the first min(m, floor(5p/8)) bytes of the number of the text's valid prefix of p symbols in KEY, zeros after
them, and nothing else but the decoder and ERR changed. -/
def Obligations.WholeDecodeIsTheDecodeFunction : Prop :=
  ∀ (s : State) (m : Nat) (cs : List Byte), m ≤ 64 →
    ∃ key klen, runInstrs (.b32Init m :: (cs.map .b32Push ++ [.b32Finish])) s = .next { s with
        key := key, klen := klen, kmax := BitVec.ofNat 7 m, acc := 0, nsym := 0, b32st := .finished,
        err := if klen.toNat = 0 then .emptyKey else .ok } ∧
      klen.toNat = min m (5 * (validPrefix cs).length / 8) ∧
      (∀ i, i < klen.toNat → (byteAt key i).toNat =
        symbolsValue (validPrefix cs) / 2 ^ (5 * (validPrefix cs).length - 8 * (i + 1)) % 256) ∧
      (∀ i, klen.toNat ≤ i → byteAt key i = 0)

/-- 41_base32.md R100: the values of B32ST, the commands that move it, and that no step moves it otherwise. -/
def Obligations.DecoderStateTransitions : Prop :=
  (B32State.idle.bits = 0 ∧ B32State.active.bits = 1 ∧ B32State.stopped.bits = 2 ∧ B32State.finished.bits = 3) ∧
  (∀ (s : State) (m : Nat), m ≤ 64 →
    ∃ t, exec (.b32Init m) s = .next t ∧ t.b32st = if m = 0 then .stopped else .active) ∧
  (∀ (s : State) (c : Byte), DecoderInv s → s.b32st = .active →
    ∃ t, exec (.b32Push c) s = .next t ∧ t.b32st = if sym c = none ∨ t.klen = t.kmax then .stopped else .active) ∧
  (∀ s : State, s.b32st ≠ .idle → ∃ t, exec .b32Finish s = .next t ∧ t.b32st = .finished) ∧
  (∀ s : State, ∃ t, exec .srst s = .next t ∧ t.b32st = .idle) ∧
  (∀ s t : State, DecoderInv s → step s = .next t →
    (t.b32st = .active → t.klen.toNat < t.kmax.toNat) ∧
    (t.b32st = s.b32st ∨
      (t.b32st = .idle ∧ NextResets s) ∨
      ((t.b32st = .active ∨ t.b32st = .stopped) ∧ ∃ m, m ≤ 64 ∧ NextRuns s (.b32Init m)) ∨
      (s.b32st = .active ∧ t.b32st = .stopped ∧
        ∃ c, NextRuns s (.b32Push c) ∧ (sym c = none ∨ t.klen = t.kmax)) ∨
      ((s.b32st = .active ∨ s.b32st = .stopped) ∧ t.b32st = .finished ∧ NextRuns s .b32Finish)))

/-- From a B32_FINISH to the next B32_INIT or reset no step changes the key (41_base32.md R111, derived there). -/
def Obligations.KeyIsImmutableOnceFinished : Prop :=
  ∀ s t : State, s.b32st = .finished → step s = .next t → ¬ NextResets s → (∀ m, ¬ NextRuns s (.b32Init m)) →
    t.key = s.key ∧ t.klen = s.klen ∧ t.kmax = s.kmax ∧ t.b32st = .finished

/-- 41_base32.md R120: the decoder's commands neither read nor write COUNTER, CB, DSTAT, DIGEST or token state, and no
other unit reads ACC, NSYM or KMAX. -/
def Obligations.DecoderIsIsolated : Prop :=
  (∀ (i : Instr) (s t : State), (∃ m, i = .b32Init m) ∨ (∃ c, i = .b32Push c) ∨ i = .b32Finish →
    exec i s = .next t →
    (t.counter = s.counter ∧ t.cb = s.cb ∧ t.digestPart = s.digestPart ∧ t.tokenPart = s.tokenPart) ∧
    (∀ s', s'.decoderPart = s.decoderPart →
      ∃ t', exec i s' = .next t' ∧ t'.decoderPart = t.decoderPart ∧ t'.err = t.err)) ∧
  (∀ (i : Instr) (s t : State) (acc : BitVec 40) (nsym : BitVec 3) (kmax : BitVec 7),
    i = .ctrEnc ∨ (∃ d, i = .trunc d) ∨ i = .nop → exec i s = .next t →
    exec i { s with acc := acc, nsym := nsym, kmax := kmax } = .next { t with acc := acc, nsym := nsym, kmax := kmax })

/-! ### The counter encoder -/

/-- 42_counter.md R131: CTR_ENC writes the eight bytes of COUNTER, the most significant first, and nothing else but
ERR. -/
def Obligations.CounterBytesAreBigEndian : Prop :=
  ∀ s : State, ∃ cb, exec .ctrEnc s = .next { s with cb := cb, err := .ok } ∧
    ∀ i, i < 8 → byteAt cb i = s.counter.extractLsb' (56 - 8 * i) 8

/-- After CTR_ENC the bytes of CB, read big-endian, are COUNTER, and in terms of the bus registers they are CNT_HI and
then CNT_LO, each from its most significant byte down (42_counter.md R132, R131, derived there). -/
def Obligations.CounterRoundTrip : Prop :=
  ∀ s t : State, exec .ctrEnc s = .next t →
    (List.range 8).foldl (fun n i => n * 2 ^ 8 + (byteAt t.cb i).toNat) 0 = s.counter.toNat ∧
    ∀ i, i < 4 → byteAt t.cb i = (readWord 0x010 s).extractLsb' (24 - 8 * i) 8 ∧
      byteAt t.cb (4 + i) = (readWord 0x00C s).extractLsb' (24 - 8 * i) 8

/-! ### Truncation and token render -/

/-- 43_truncate.md R145 to R150: a TRUNC whose checks pass, from any digest bytes. -/
def Obligations.TruncRendersTheToken : Prop :=
  ∀ (s : State) (d : Nat), 1 ≤ d → d ≤ 10 → s.merr = false → s.dv = true →
    let off := (byteAt s.digest 19).toNat % 16
    let raw := (byteAt s.digest off).toNat % 128 * 2 ^ 24 + (byteAt s.digest (off + 1)).toNat * 2 ^ 16 +
      (byteAt s.digest (off + 2)).toNat * 2 ^ 8 + (byteAt s.digest (off + 3)).toNat
    let tv := raw % 10 ^ d
    raw < 2 ^ 31 ∧
    ∃ token toff traw tval tlen, exec (.trunc d) s = .next { s with
        token := token, toff := toff, traw := traw, tval := tval, tlen := tlen, tvalid := true, dv := false,
        err := .ok } ∧
      toff.toNat = off ∧ traw.toNat = raw ∧ tval.toNat = tv ∧ tlen.toNat = d ∧
      (∀ i, i < d → (byteAt token i).toNat = 0x30 + tv / 10 ^ (d - 1 - i) % 10) ∧
      (∀ i, d ≤ i → byteAt token i = 0)

/-- 43_truncate.md R144: TRUNC's checks in their order; a failing one sets TVALID to 0 and ERR to its code, and writes
nothing else. -/
def Obligations.TruncChecksInOrder : Prop :=
  ∀ (s : State) (d : Nat),
    (d < 1 ∨ 10 < d → exec (.trunc d) s = .next { s with tvalid := false, err := .badDigits }) ∧
    (1 ≤ d → d ≤ 10 → s.merr = true → exec (.trunc d) s = .next { s with tvalid := false, err := .macFail }) ∧
    (1 ≤ d → d ≤ 10 → s.merr = false → s.dv = false →
      exec (.trunc d) s = .next { s with tvalid := false, err := .noDigest })

/-- A rendered token has exactly d characters, all decimal digits, and read as a decimal number it is TVAL
(43_truncate.md R153, derived there; R148). -/
def Obligations.TokenReadsBackAsItsValue : Prop :=
  ∀ (s t : State) (d : Nat), exec (.trunc d) s = .next t → t.err = .ok →
    (∀ i, i < 10 → (byteAt t.token i ≠ 0 ↔ i < d)) ∧
    (∀ i, i < d → 0x30 ≤ (byteAt t.token i).toNat ∧ (byteAt t.token i).toNat ≤ 0x39) ∧
    (List.range d).foldl (fun n i => n * 10 + ((byteAt t.token i).toNat - 0x30)) 0 = t.tval.toNat

/-- 43_truncate.md R151, R154: TRUNC reads nothing but its digit count, DIGEST, DV and MERR, so no key, counter or
earlier token; a successful one leaves TVALID 1 and DV 0; and it writes neither DIGEST, MERR, COUNTER, CB nor the
decoder. -/
def Obligations.TruncReadsOnlyTheDigest : Prop :=
  ∀ (s s' t : State) (d : Nat), s'.digestPart = s.digestPart → exec (.trunc d) s = .next t →
    (t.err = .ok → t.tvalid = true ∧ t.dv = false) ∧
    (t.digest = s.digest ∧ t.merr = s.merr ∧ t.counter = s.counter ∧ t.cb = s.cb ∧ t.decoderPart = s.decoderPart) ∧
    ∃ t', exec (.trunc d) s' = .next t' ∧ t'.err = t.err ∧ t'.tvalid = t.tvalid ∧ t'.digestPart = t.digestPart ∧
      (t.err = .ok → t'.tokenPart = t.tokenPart)

/-- 43_truncate.md R142: a successful TRUNC clears DV, so a second one without a new delivery fails with NO_DIGEST, and
it does not change the DIGEST bytes. -/
def Obligations.TruncConsumesTheDigest : Prop :=
  ∀ (s t : State) (d d' : Nat), exec (.trunc d) s = .next t → t.err = .ok → 1 ≤ d' → d' ≤ 10 →
    t.dv = false ∧ t.digest = s.digest ∧ exec (.trunc d') t = .next { t with tvalid := false, err := .noDigest }

/-- While MERR = 1 every TRUNC with a legal digit count fails with MAC_FAIL, and only a write to DSTAT or a reset clears
MERR (43_truncate.md R141, read with R144's check order: log 14). -/
def Obligations.MacFailureBlocksTruncation : Prop :=
  (∀ (s : State) (d : Nat), s.merr = true → 1 ≤ d → d ≤ 10 →
    exec (.trunc d) s = .next { s with tvalid := false, err := .macFail }) ∧
  (∀ s t : State, s.merr = true → step s = .next t → t.merr = false → NextWrites s 0x014 ∨ NextResets s)

/-! ### Control commands, result codes and the units together -/

/-- 44_control.md R160: NOP is the word 0 and no other; it leaves OK (0) in ERR and changes nothing else; a word with
NOP's OP, RSV = 0 and ARG != 0 is no NOP but ILLEGAL. -/
def Obligations.NopOnlyClearsErr : Prop :=
  ResultCode.ok.bits = 0 ∧ (∀ w : Word, decode w = .ok .nop ↔ w &&& 0xFFFFFFFF = 0x00000000) ∧
  (∀ s : State, exec .nop s = .next { s with err := .ok }) ∧
  (∀ (w : Word) (s : State), w.extractLsb' 16 16 = 0 → w.extractLsb' 0 8 = 0x00 → w.extractLsb' 8 8 ≠ 0 →
    runWord w s = .next { s with err := .illegal })

/-- 60_exceptions.md R170, R175: the number that each command word leaves in STATUS[3:0], with the checks in their
order. -/
def Obligations.ResultCodeOfEveryCommandWord : Prop :=
  ∀ (w : Word) (s : State), ∃ t, runWord w s = .next t ∧
    let code := ((readWord 0x004 t).extractLsb' 0 4).toNat
    (IllegalWord w → code = 1) ∧
    (decode w = .ok .nop ∨ decode w = .ok .ctrEnc ∨ decode w = .ok .srst → code = 0) ∧
    (∀ m, decode w = .ok (.b32Init m) → code = if 64 < m then 2 else 0) ∧
    (∀ c, decode w = .ok (.b32Push c) → code = if s.b32st = .idle then 3 else 0) ∧
    (decode w = .ok .b32Finish → code = if s.b32st = .idle then 3 else if t.klen.toNat = 0 then 4 else 0) ∧
    (∀ d, decode w = .ok (.trunc d) → code =
      if d < 1 ∨ 10 < d then 5 else if s.merr = true then 6 else if s.dv = false then 7 else 0)

/-- A command word that leaves a code other than OK and EMPTY_KEY changes nothing but ERR and, where it is a TRUNC,
TVALID (60_exceptions.md R171, R172). EMPTY_KEY is excluded: B32_FINISH leaves it after its flush and its move to
FINISHED (41_base32.md R109, 60_exceptions.md R175; log 8). -/
def Obligations.FailingCommandsDoNothingElse : Prop :=
  ∀ (w : Word) (s t : State), runWord w s = .next t → t.err ≠ .ok → t.err ≠ .emptyKey →
    t = { s with err := t.err, tvalid := t.tvalid } ∧
    (t.tvalid = s.tvalid ∨ (t.tvalid = false ∧ ∃ d, decode w = .ok (.trunc d)))

/-- The decoder and the counter encoder work on disjoint state: a decoder command and CTR_ENC, in either order, leave
the same state but for ERR (70_reset_and_hazards.md R193: either may come first). -/
def Obligations.DecoderAndCounterEncoderCommute : Prop :=
  ∀ (i : Instr) (s : State), (∃ m, i = .b32Init m) ∨ (∃ c, i = .b32Push c) ∨ i = .b32Finish →
    ∃ t u t' u', exec i s = .next t ∧ exec .ctrEnc t = .next u ∧ exec .ctrEnc s = .next t' ∧ exec i t' = .next u' ∧
      { u' with err := u.err } = u
end

