-- ==== Sys2Proof/Laws/State.lean ====
section
/-! SUPPORT. One lemma per field per update of the state, each true by rfl, so that no later proof unfolds a record
update. -/

namespace Sys2Proof.Machine

section
variable (s : State) (c : ResultCode)
@[simp] theorem State.setErr_err : (s.setErr c).err = c := rfl
@[simp] theorem State.setErr_tvalid : (s.setErr c).tvalid = s.tvalid := rfl
@[simp] theorem State.setErr_b32st : (s.setErr c).b32st = s.b32st := rfl
@[simp] theorem State.setErr_nsym : (s.setErr c).nsym = s.nsym := rfl
@[simp] theorem State.setErr_klen : (s.setErr c).klen = s.klen := rfl
@[simp] theorem State.setErr_kmax : (s.setErr c).kmax = s.kmax := rfl
@[simp] theorem State.setErr_acc : (s.setErr c).acc = s.acc := rfl
@[simp] theorem State.setErr_counter : (s.setErr c).counter = s.counter := rfl
@[simp] theorem State.setErr_dv : (s.setErr c).dv = s.dv := rfl
@[simp] theorem State.setErr_merr : (s.setErr c).merr = s.merr := rfl
@[simp] theorem State.setErr_toff : (s.setErr c).toff = s.toff := rfl
@[simp] theorem State.setErr_tlen : (s.setErr c).tlen = s.tlen := rfl
@[simp] theorem State.setErr_traw : (s.setErr c).traw = s.traw := rfl
@[simp] theorem State.setErr_tval : (s.setErr c).tval = s.tval := rfl
@[simp] theorem State.setErr_key : (s.setErr c).key = s.key := rfl
@[simp] theorem State.setErr_cb : (s.setErr c).cb = s.cb := rfl
@[simp] theorem State.setErr_digest : (s.setErr c).digest = s.digest := rfl
@[simp] theorem State.setErr_token : (s.setErr c).token = s.token := rfl
@[simp] theorem State.setErr_inputs : (s.setErr c).inputs = s.inputs := rfl
@[simp] theorem State.setErr_response : (s.setErr c).response = s.response := rfl
end

section
variable (s : State) (b : Bool)
@[simp] theorem State.setTvalid_err : (s.setTvalid b).err = s.err := rfl
@[simp] theorem State.setTvalid_tvalid : (s.setTvalid b).tvalid = b := rfl
@[simp] theorem State.setTvalid_b32st : (s.setTvalid b).b32st = s.b32st := rfl
@[simp] theorem State.setTvalid_nsym : (s.setTvalid b).nsym = s.nsym := rfl
@[simp] theorem State.setTvalid_klen : (s.setTvalid b).klen = s.klen := rfl
@[simp] theorem State.setTvalid_kmax : (s.setTvalid b).kmax = s.kmax := rfl
@[simp] theorem State.setTvalid_acc : (s.setTvalid b).acc = s.acc := rfl
@[simp] theorem State.setTvalid_counter : (s.setTvalid b).counter = s.counter := rfl
@[simp] theorem State.setTvalid_dv : (s.setTvalid b).dv = s.dv := rfl
@[simp] theorem State.setTvalid_merr : (s.setTvalid b).merr = s.merr := rfl
@[simp] theorem State.setTvalid_toff : (s.setTvalid b).toff = s.toff := rfl
@[simp] theorem State.setTvalid_tlen : (s.setTvalid b).tlen = s.tlen := rfl
@[simp] theorem State.setTvalid_traw : (s.setTvalid b).traw = s.traw := rfl
@[simp] theorem State.setTvalid_tval : (s.setTvalid b).tval = s.tval := rfl
@[simp] theorem State.setTvalid_key : (s.setTvalid b).key = s.key := rfl
@[simp] theorem State.setTvalid_cb : (s.setTvalid b).cb = s.cb := rfl
@[simp] theorem State.setTvalid_digest : (s.setTvalid b).digest = s.digest := rfl
@[simp] theorem State.setTvalid_token : (s.setTvalid b).token = s.token := rfl
@[simp] theorem State.setTvalid_inputs : (s.setTvalid b).inputs = s.inputs := rfl
@[simp] theorem State.setTvalid_response : (s.setTvalid b).response = s.response := rfl
end

section
variable (s : State) (x : B32State)
@[simp] theorem State.setB32st_err : (s.setB32st x).err = s.err := rfl
@[simp] theorem State.setB32st_tvalid : (s.setB32st x).tvalid = s.tvalid := rfl
@[simp] theorem State.setB32st_b32st : (s.setB32st x).b32st = x := rfl
@[simp] theorem State.setB32st_nsym : (s.setB32st x).nsym = s.nsym := rfl
@[simp] theorem State.setB32st_klen : (s.setB32st x).klen = s.klen := rfl
@[simp] theorem State.setB32st_kmax : (s.setB32st x).kmax = s.kmax := rfl
@[simp] theorem State.setB32st_acc : (s.setB32st x).acc = s.acc := rfl
@[simp] theorem State.setB32st_counter : (s.setB32st x).counter = s.counter := rfl
@[simp] theorem State.setB32st_dv : (s.setB32st x).dv = s.dv := rfl
@[simp] theorem State.setB32st_merr : (s.setB32st x).merr = s.merr := rfl
@[simp] theorem State.setB32st_toff : (s.setB32st x).toff = s.toff := rfl
@[simp] theorem State.setB32st_tlen : (s.setB32st x).tlen = s.tlen := rfl
@[simp] theorem State.setB32st_traw : (s.setB32st x).traw = s.traw := rfl
@[simp] theorem State.setB32st_tval : (s.setB32st x).tval = s.tval := rfl
@[simp] theorem State.setB32st_key : (s.setB32st x).key = s.key := rfl
@[simp] theorem State.setB32st_cb : (s.setB32st x).cb = s.cb := rfl
@[simp] theorem State.setB32st_digest : (s.setB32st x).digest = s.digest := rfl
@[simp] theorem State.setB32st_token : (s.setB32st x).token = s.token := rfl
@[simp] theorem State.setB32st_inputs : (s.setB32st x).inputs = s.inputs := rfl
@[simp] theorem State.setB32st_response : (s.setB32st x).response = s.response := rfl
end

section
variable (s : State) (a : BitVec 40) (n : BitVec 3)
@[simp] theorem State.setGroup_err : (s.setGroup a n).err = s.err := rfl
@[simp] theorem State.setGroup_tvalid : (s.setGroup a n).tvalid = s.tvalid := rfl
@[simp] theorem State.setGroup_b32st : (s.setGroup a n).b32st = s.b32st := rfl
@[simp] theorem State.setGroup_nsym : (s.setGroup a n).nsym = n := rfl
@[simp] theorem State.setGroup_klen : (s.setGroup a n).klen = s.klen := rfl
@[simp] theorem State.setGroup_kmax : (s.setGroup a n).kmax = s.kmax := rfl
@[simp] theorem State.setGroup_acc : (s.setGroup a n).acc = a := rfl
@[simp] theorem State.setGroup_counter : (s.setGroup a n).counter = s.counter := rfl
@[simp] theorem State.setGroup_dv : (s.setGroup a n).dv = s.dv := rfl
@[simp] theorem State.setGroup_merr : (s.setGroup a n).merr = s.merr := rfl
@[simp] theorem State.setGroup_toff : (s.setGroup a n).toff = s.toff := rfl
@[simp] theorem State.setGroup_tlen : (s.setGroup a n).tlen = s.tlen := rfl
@[simp] theorem State.setGroup_traw : (s.setGroup a n).traw = s.traw := rfl
@[simp] theorem State.setGroup_tval : (s.setGroup a n).tval = s.tval := rfl
@[simp] theorem State.setGroup_key : (s.setGroup a n).key = s.key := rfl
@[simp] theorem State.setGroup_cb : (s.setGroup a n).cb = s.cb := rfl
@[simp] theorem State.setGroup_digest : (s.setGroup a n).digest = s.digest := rfl
@[simp] theorem State.setGroup_token : (s.setGroup a n).token = s.token := rfl
@[simp] theorem State.setGroup_inputs : (s.setGroup a n).inputs = s.inputs := rfl
@[simp] theorem State.setGroup_response : (s.setGroup a n).response = s.response := rfl
end

section
variable (s : State) (k : Vector Byte Config.keyMax) (n : BitVec 7)
@[simp] theorem State.setKey_err : (s.setKey k n).err = s.err := rfl
@[simp] theorem State.setKey_tvalid : (s.setKey k n).tvalid = s.tvalid := rfl
@[simp] theorem State.setKey_b32st : (s.setKey k n).b32st = s.b32st := rfl
@[simp] theorem State.setKey_nsym : (s.setKey k n).nsym = s.nsym := rfl
@[simp] theorem State.setKey_klen : (s.setKey k n).klen = n := rfl
@[simp] theorem State.setKey_kmax : (s.setKey k n).kmax = s.kmax := rfl
@[simp] theorem State.setKey_acc : (s.setKey k n).acc = s.acc := rfl
@[simp] theorem State.setKey_counter : (s.setKey k n).counter = s.counter := rfl
@[simp] theorem State.setKey_dv : (s.setKey k n).dv = s.dv := rfl
@[simp] theorem State.setKey_merr : (s.setKey k n).merr = s.merr := rfl
@[simp] theorem State.setKey_toff : (s.setKey k n).toff = s.toff := rfl
@[simp] theorem State.setKey_tlen : (s.setKey k n).tlen = s.tlen := rfl
@[simp] theorem State.setKey_traw : (s.setKey k n).traw = s.traw := rfl
@[simp] theorem State.setKey_tval : (s.setKey k n).tval = s.tval := rfl
@[simp] theorem State.setKey_key : (s.setKey k n).key = k := rfl
@[simp] theorem State.setKey_cb : (s.setKey k n).cb = s.cb := rfl
@[simp] theorem State.setKey_digest : (s.setKey k n).digest = s.digest := rfl
@[simp] theorem State.setKey_token : (s.setKey k n).token = s.token := rfl
@[simp] theorem State.setKey_inputs : (s.setKey k n).inputs = s.inputs := rfl
@[simp] theorem State.setKey_response : (s.setKey k n).response = s.response := rfl
end

section
variable (s : State) (n : BitVec 7)
@[simp] theorem State.setKmax_err : (s.setKmax n).err = s.err := rfl
@[simp] theorem State.setKmax_tvalid : (s.setKmax n).tvalid = s.tvalid := rfl
@[simp] theorem State.setKmax_b32st : (s.setKmax n).b32st = s.b32st := rfl
@[simp] theorem State.setKmax_nsym : (s.setKmax n).nsym = s.nsym := rfl
@[simp] theorem State.setKmax_klen : (s.setKmax n).klen = s.klen := rfl
@[simp] theorem State.setKmax_kmax : (s.setKmax n).kmax = n := rfl
@[simp] theorem State.setKmax_acc : (s.setKmax n).acc = s.acc := rfl
@[simp] theorem State.setKmax_counter : (s.setKmax n).counter = s.counter := rfl
@[simp] theorem State.setKmax_dv : (s.setKmax n).dv = s.dv := rfl
@[simp] theorem State.setKmax_merr : (s.setKmax n).merr = s.merr := rfl
@[simp] theorem State.setKmax_toff : (s.setKmax n).toff = s.toff := rfl
@[simp] theorem State.setKmax_tlen : (s.setKmax n).tlen = s.tlen := rfl
@[simp] theorem State.setKmax_traw : (s.setKmax n).traw = s.traw := rfl
@[simp] theorem State.setKmax_tval : (s.setKmax n).tval = s.tval := rfl
@[simp] theorem State.setKmax_key : (s.setKmax n).key = s.key := rfl
@[simp] theorem State.setKmax_cb : (s.setKmax n).cb = s.cb := rfl
@[simp] theorem State.setKmax_digest : (s.setKmax n).digest = s.digest := rfl
@[simp] theorem State.setKmax_token : (s.setKmax n).token = s.token := rfl
@[simp] theorem State.setKmax_inputs : (s.setKmax n).inputs = s.inputs := rfl
@[simp] theorem State.setKmax_response : (s.setKmax n).response = s.response := rfl
end

section
variable (s : State) (v : BitVec 64)
@[simp] theorem State.setCounter_err : (s.setCounter v).err = s.err := rfl
@[simp] theorem State.setCounter_tvalid : (s.setCounter v).tvalid = s.tvalid := rfl
@[simp] theorem State.setCounter_b32st : (s.setCounter v).b32st = s.b32st := rfl
@[simp] theorem State.setCounter_nsym : (s.setCounter v).nsym = s.nsym := rfl
@[simp] theorem State.setCounter_klen : (s.setCounter v).klen = s.klen := rfl
@[simp] theorem State.setCounter_kmax : (s.setCounter v).kmax = s.kmax := rfl
@[simp] theorem State.setCounter_acc : (s.setCounter v).acc = s.acc := rfl
@[simp] theorem State.setCounter_counter : (s.setCounter v).counter = v := rfl
@[simp] theorem State.setCounter_dv : (s.setCounter v).dv = s.dv := rfl
@[simp] theorem State.setCounter_merr : (s.setCounter v).merr = s.merr := rfl
@[simp] theorem State.setCounter_toff : (s.setCounter v).toff = s.toff := rfl
@[simp] theorem State.setCounter_tlen : (s.setCounter v).tlen = s.tlen := rfl
@[simp] theorem State.setCounter_traw : (s.setCounter v).traw = s.traw := rfl
@[simp] theorem State.setCounter_tval : (s.setCounter v).tval = s.tval := rfl
@[simp] theorem State.setCounter_key : (s.setCounter v).key = s.key := rfl
@[simp] theorem State.setCounter_cb : (s.setCounter v).cb = s.cb := rfl
@[simp] theorem State.setCounter_digest : (s.setCounter v).digest = s.digest := rfl
@[simp] theorem State.setCounter_token : (s.setCounter v).token = s.token := rfl
@[simp] theorem State.setCounter_inputs : (s.setCounter v).inputs = s.inputs := rfl
@[simp] theorem State.setCounter_response : (s.setCounter v).response = s.response := rfl
end

section
variable (s : State) (v : Vector Byte 8)
@[simp] theorem State.setCb_err : (s.setCb v).err = s.err := rfl
@[simp] theorem State.setCb_tvalid : (s.setCb v).tvalid = s.tvalid := rfl
@[simp] theorem State.setCb_b32st : (s.setCb v).b32st = s.b32st := rfl
@[simp] theorem State.setCb_nsym : (s.setCb v).nsym = s.nsym := rfl
@[simp] theorem State.setCb_klen : (s.setCb v).klen = s.klen := rfl
@[simp] theorem State.setCb_kmax : (s.setCb v).kmax = s.kmax := rfl
@[simp] theorem State.setCb_acc : (s.setCb v).acc = s.acc := rfl
@[simp] theorem State.setCb_counter : (s.setCb v).counter = s.counter := rfl
@[simp] theorem State.setCb_dv : (s.setCb v).dv = s.dv := rfl
@[simp] theorem State.setCb_merr : (s.setCb v).merr = s.merr := rfl
@[simp] theorem State.setCb_toff : (s.setCb v).toff = s.toff := rfl
@[simp] theorem State.setCb_tlen : (s.setCb v).tlen = s.tlen := rfl
@[simp] theorem State.setCb_traw : (s.setCb v).traw = s.traw := rfl
@[simp] theorem State.setCb_tval : (s.setCb v).tval = s.tval := rfl
@[simp] theorem State.setCb_key : (s.setCb v).key = s.key := rfl
@[simp] theorem State.setCb_cb : (s.setCb v).cb = v := rfl
@[simp] theorem State.setCb_digest : (s.setCb v).digest = s.digest := rfl
@[simp] theorem State.setCb_token : (s.setCb v).token = s.token := rfl
@[simp] theorem State.setCb_inputs : (s.setCb v).inputs = s.inputs := rfl
@[simp] theorem State.setCb_response : (s.setCb v).response = s.response := rfl
end

section
variable (s : State) (a : Bool) (b : Bool)
@[simp] theorem State.setDstat_err : (s.setDstat a b).err = s.err := rfl
@[simp] theorem State.setDstat_tvalid : (s.setDstat a b).tvalid = s.tvalid := rfl
@[simp] theorem State.setDstat_b32st : (s.setDstat a b).b32st = s.b32st := rfl
@[simp] theorem State.setDstat_nsym : (s.setDstat a b).nsym = s.nsym := rfl
@[simp] theorem State.setDstat_klen : (s.setDstat a b).klen = s.klen := rfl
@[simp] theorem State.setDstat_kmax : (s.setDstat a b).kmax = s.kmax := rfl
@[simp] theorem State.setDstat_acc : (s.setDstat a b).acc = s.acc := rfl
@[simp] theorem State.setDstat_counter : (s.setDstat a b).counter = s.counter := rfl
@[simp] theorem State.setDstat_dv : (s.setDstat a b).dv = a := rfl
@[simp] theorem State.setDstat_merr : (s.setDstat a b).merr = b := rfl
@[simp] theorem State.setDstat_toff : (s.setDstat a b).toff = s.toff := rfl
@[simp] theorem State.setDstat_tlen : (s.setDstat a b).tlen = s.tlen := rfl
@[simp] theorem State.setDstat_traw : (s.setDstat a b).traw = s.traw := rfl
@[simp] theorem State.setDstat_tval : (s.setDstat a b).tval = s.tval := rfl
@[simp] theorem State.setDstat_key : (s.setDstat a b).key = s.key := rfl
@[simp] theorem State.setDstat_cb : (s.setDstat a b).cb = s.cb := rfl
@[simp] theorem State.setDstat_digest : (s.setDstat a b).digest = s.digest := rfl
@[simp] theorem State.setDstat_token : (s.setDstat a b).token = s.token := rfl
@[simp] theorem State.setDstat_inputs : (s.setDstat a b).inputs = s.inputs := rfl
@[simp] theorem State.setDstat_response : (s.setDstat a b).response = s.response := rfl
end

section
variable (s : State) (v : Vector Byte Config.digestLen)
@[simp] theorem State.setDigest_err : (s.setDigest v).err = s.err := rfl
@[simp] theorem State.setDigest_tvalid : (s.setDigest v).tvalid = s.tvalid := rfl
@[simp] theorem State.setDigest_b32st : (s.setDigest v).b32st = s.b32st := rfl
@[simp] theorem State.setDigest_nsym : (s.setDigest v).nsym = s.nsym := rfl
@[simp] theorem State.setDigest_klen : (s.setDigest v).klen = s.klen := rfl
@[simp] theorem State.setDigest_kmax : (s.setDigest v).kmax = s.kmax := rfl
@[simp] theorem State.setDigest_acc : (s.setDigest v).acc = s.acc := rfl
@[simp] theorem State.setDigest_counter : (s.setDigest v).counter = s.counter := rfl
@[simp] theorem State.setDigest_dv : (s.setDigest v).dv = s.dv := rfl
@[simp] theorem State.setDigest_merr : (s.setDigest v).merr = s.merr := rfl
@[simp] theorem State.setDigest_toff : (s.setDigest v).toff = s.toff := rfl
@[simp] theorem State.setDigest_tlen : (s.setDigest v).tlen = s.tlen := rfl
@[simp] theorem State.setDigest_traw : (s.setDigest v).traw = s.traw := rfl
@[simp] theorem State.setDigest_tval : (s.setDigest v).tval = s.tval := rfl
@[simp] theorem State.setDigest_key : (s.setDigest v).key = s.key := rfl
@[simp] theorem State.setDigest_cb : (s.setDigest v).cb = s.cb := rfl
@[simp] theorem State.setDigest_digest : (s.setDigest v).digest = v := rfl
@[simp] theorem State.setDigest_token : (s.setDigest v).token = s.token := rfl
@[simp] theorem State.setDigest_inputs : (s.setDigest v).inputs = s.inputs := rfl
@[simp] theorem State.setDigest_response : (s.setDigest v).response = s.response := rfl
end

section
variable (s : State) (k : Vector Byte Config.tokenMax) (l : BitVec 4) (o : BitVec 4) (r : BitVec 31) (v : BitVec 32)
@[simp] theorem State.setToken_err : (s.setToken k l o r v).err = s.err := rfl
@[simp] theorem State.setToken_tvalid : (s.setToken k l o r v).tvalid = s.tvalid := rfl
@[simp] theorem State.setToken_b32st : (s.setToken k l o r v).b32st = s.b32st := rfl
@[simp] theorem State.setToken_nsym : (s.setToken k l o r v).nsym = s.nsym := rfl
@[simp] theorem State.setToken_klen : (s.setToken k l o r v).klen = s.klen := rfl
@[simp] theorem State.setToken_kmax : (s.setToken k l o r v).kmax = s.kmax := rfl
@[simp] theorem State.setToken_acc : (s.setToken k l o r v).acc = s.acc := rfl
@[simp] theorem State.setToken_counter : (s.setToken k l o r v).counter = s.counter := rfl
@[simp] theorem State.setToken_dv : (s.setToken k l o r v).dv = s.dv := rfl
@[simp] theorem State.setToken_merr : (s.setToken k l o r v).merr = s.merr := rfl
@[simp] theorem State.setToken_toff : (s.setToken k l o r v).toff = o := rfl
@[simp] theorem State.setToken_tlen : (s.setToken k l o r v).tlen = l := rfl
@[simp] theorem State.setToken_traw : (s.setToken k l o r v).traw = r := rfl
@[simp] theorem State.setToken_tval : (s.setToken k l o r v).tval = v := rfl
@[simp] theorem State.setToken_key : (s.setToken k l o r v).key = s.key := rfl
@[simp] theorem State.setToken_cb : (s.setToken k l o r v).cb = s.cb := rfl
@[simp] theorem State.setToken_digest : (s.setToken k l o r v).digest = s.digest := rfl
@[simp] theorem State.setToken_token : (s.setToken k l o r v).token = k := rfl
@[simp] theorem State.setToken_inputs : (s.setToken k l o r v).inputs = s.inputs := rfl
@[simp] theorem State.setToken_response : (s.setToken k l o r v).response = s.response := rfl
end

section
variable (s : State) (l : List Input)
@[simp] theorem State.setInputs_err : (s.setInputs l).err = s.err := rfl
@[simp] theorem State.setInputs_tvalid : (s.setInputs l).tvalid = s.tvalid := rfl
@[simp] theorem State.setInputs_b32st : (s.setInputs l).b32st = s.b32st := rfl
@[simp] theorem State.setInputs_nsym : (s.setInputs l).nsym = s.nsym := rfl
@[simp] theorem State.setInputs_klen : (s.setInputs l).klen = s.klen := rfl
@[simp] theorem State.setInputs_kmax : (s.setInputs l).kmax = s.kmax := rfl
@[simp] theorem State.setInputs_acc : (s.setInputs l).acc = s.acc := rfl
@[simp] theorem State.setInputs_counter : (s.setInputs l).counter = s.counter := rfl
@[simp] theorem State.setInputs_dv : (s.setInputs l).dv = s.dv := rfl
@[simp] theorem State.setInputs_merr : (s.setInputs l).merr = s.merr := rfl
@[simp] theorem State.setInputs_toff : (s.setInputs l).toff = s.toff := rfl
@[simp] theorem State.setInputs_tlen : (s.setInputs l).tlen = s.tlen := rfl
@[simp] theorem State.setInputs_traw : (s.setInputs l).traw = s.traw := rfl
@[simp] theorem State.setInputs_tval : (s.setInputs l).tval = s.tval := rfl
@[simp] theorem State.setInputs_key : (s.setInputs l).key = s.key := rfl
@[simp] theorem State.setInputs_cb : (s.setInputs l).cb = s.cb := rfl
@[simp] theorem State.setInputs_digest : (s.setInputs l).digest = s.digest := rfl
@[simp] theorem State.setInputs_token : (s.setInputs l).token = s.token := rfl
@[simp] theorem State.setInputs_inputs : (s.setInputs l).inputs = l := rfl
@[simp] theorem State.setInputs_response : (s.setInputs l).response = s.response := rfl
end

section
variable (s : State) (r : Option Response)
@[simp] theorem State.setResponse_err : (s.setResponse r).err = s.err := rfl
@[simp] theorem State.setResponse_tvalid : (s.setResponse r).tvalid = s.tvalid := rfl
@[simp] theorem State.setResponse_b32st : (s.setResponse r).b32st = s.b32st := rfl
@[simp] theorem State.setResponse_nsym : (s.setResponse r).nsym = s.nsym := rfl
@[simp] theorem State.setResponse_klen : (s.setResponse r).klen = s.klen := rfl
@[simp] theorem State.setResponse_kmax : (s.setResponse r).kmax = s.kmax := rfl
@[simp] theorem State.setResponse_acc : (s.setResponse r).acc = s.acc := rfl
@[simp] theorem State.setResponse_counter : (s.setResponse r).counter = s.counter := rfl
@[simp] theorem State.setResponse_dv : (s.setResponse r).dv = s.dv := rfl
@[simp] theorem State.setResponse_merr : (s.setResponse r).merr = s.merr := rfl
@[simp] theorem State.setResponse_toff : (s.setResponse r).toff = s.toff := rfl
@[simp] theorem State.setResponse_tlen : (s.setResponse r).tlen = s.tlen := rfl
@[simp] theorem State.setResponse_traw : (s.setResponse r).traw = s.traw := rfl
@[simp] theorem State.setResponse_tval : (s.setResponse r).tval = s.tval := rfl
@[simp] theorem State.setResponse_key : (s.setResponse r).key = s.key := rfl
@[simp] theorem State.setResponse_cb : (s.setResponse r).cb = s.cb := rfl
@[simp] theorem State.setResponse_digest : (s.setResponse r).digest = s.digest := rfl
@[simp] theorem State.setResponse_token : (s.setResponse r).token = s.token := rfl
@[simp] theorem State.setResponse_inputs : (s.setResponse r).inputs = s.inputs := rfl
@[simp] theorem State.setResponse_response : (s.setResponse r).response = r := rfl
end

section
variable (s : State)
@[simp] theorem resetElements_err : (resetElements s).err = State.reset.err := rfl
@[simp] theorem resetElements_tvalid : (resetElements s).tvalid = State.reset.tvalid := rfl
@[simp] theorem resetElements_b32st : (resetElements s).b32st = State.reset.b32st := rfl
@[simp] theorem resetElements_nsym : (resetElements s).nsym = State.reset.nsym := rfl
@[simp] theorem resetElements_klen : (resetElements s).klen = State.reset.klen := rfl
@[simp] theorem resetElements_kmax : (resetElements s).kmax = State.reset.kmax := rfl
@[simp] theorem resetElements_acc : (resetElements s).acc = State.reset.acc := rfl
@[simp] theorem resetElements_counter : (resetElements s).counter = State.reset.counter := rfl
@[simp] theorem resetElements_dv : (resetElements s).dv = State.reset.dv := rfl
@[simp] theorem resetElements_merr : (resetElements s).merr = State.reset.merr := rfl
@[simp] theorem resetElements_toff : (resetElements s).toff = State.reset.toff := rfl
@[simp] theorem resetElements_tlen : (resetElements s).tlen = State.reset.tlen := rfl
@[simp] theorem resetElements_traw : (resetElements s).traw = State.reset.traw := rfl
@[simp] theorem resetElements_tval : (resetElements s).tval = State.reset.tval := rfl
@[simp] theorem resetElements_key : (resetElements s).key = State.reset.key := rfl
@[simp] theorem resetElements_cb : (resetElements s).cb = State.reset.cb := rfl
@[simp] theorem resetElements_digest : (resetElements s).digest = State.reset.digest := rfl
@[simp] theorem resetElements_token : (resetElements s).token = State.reset.token := rfl
@[simp] theorem resetElements_inputs : (resetElements s).inputs = s.inputs := rfl
@[simp] theorem resetElements_response : (resetElements s).response = s.response := rfl
end

section
variable (s : State)
@[simp] theorem hardwareReset_err : (hardwareReset s).err = State.reset.err := rfl
@[simp] theorem hardwareReset_tvalid : (hardwareReset s).tvalid = State.reset.tvalid := rfl
@[simp] theorem hardwareReset_b32st : (hardwareReset s).b32st = State.reset.b32st := rfl
@[simp] theorem hardwareReset_nsym : (hardwareReset s).nsym = State.reset.nsym := rfl
@[simp] theorem hardwareReset_klen : (hardwareReset s).klen = State.reset.klen := rfl
@[simp] theorem hardwareReset_kmax : (hardwareReset s).kmax = State.reset.kmax := rfl
@[simp] theorem hardwareReset_acc : (hardwareReset s).acc = State.reset.acc := rfl
@[simp] theorem hardwareReset_counter : (hardwareReset s).counter = State.reset.counter := rfl
@[simp] theorem hardwareReset_dv : (hardwareReset s).dv = State.reset.dv := rfl
@[simp] theorem hardwareReset_merr : (hardwareReset s).merr = State.reset.merr := rfl
@[simp] theorem hardwareReset_toff : (hardwareReset s).toff = State.reset.toff := rfl
@[simp] theorem hardwareReset_tlen : (hardwareReset s).tlen = State.reset.tlen := rfl
@[simp] theorem hardwareReset_traw : (hardwareReset s).traw = State.reset.traw := rfl
@[simp] theorem hardwareReset_tval : (hardwareReset s).tval = State.reset.tval := rfl
@[simp] theorem hardwareReset_key : (hardwareReset s).key = State.reset.key := rfl
@[simp] theorem hardwareReset_cb : (hardwareReset s).cb = State.reset.cb := rfl
@[simp] theorem hardwareReset_digest : (hardwareReset s).digest = State.reset.digest := rfl
@[simp] theorem hardwareReset_token : (hardwareReset s).token = State.reset.token := rfl
@[simp] theorem hardwareReset_inputs : (hardwareReset s).inputs = s.inputs := rfl
@[simp] theorem hardwareReset_response : (hardwareReset s).response = none := rfl
end

/-- `finish` is the update of ERR, whose lemmas apply. -/
@[simp] theorem finish_eq (c : ResultCode) (s : State) : finish c s = s.setErr c := rfl

/-- A state is what its elements and the model's two fields are. -/
theorem State.eq_of_fields {s t : State} (h_err : s.err = t.err) (h_tvalid : s.tvalid = t.tvalid) (h_b32st : s.b32st = t.b32st) (h_nsym : s.nsym = t.nsym) (h_klen : s.klen = t.klen) (h_kmax : s.kmax = t.kmax) (h_acc : s.acc = t.acc) (h_counter : s.counter = t.counter) (h_dv : s.dv = t.dv) (h_merr : s.merr = t.merr) (h_toff : s.toff = t.toff) (h_tlen : s.tlen = t.tlen) (h_traw : s.traw = t.traw) (h_tval : s.tval = t.tval) (h_key : s.key = t.key) (h_cb : s.cb = t.cb) (h_digest : s.digest = t.digest) (h_token : s.token = t.token) (h_inputs : s.inputs = t.inputs) (h_response : s.response = t.response) : s = t := by
  cases s; cases t; simp_all

end Sys2Proof.Machine
end

