-- ==== Sys2Proof/Laws/Ops.lean ====
section
/-! SUPPORT. The laws of buffer bytes and bus words: a byte read after a byte written, and what a bus word reads and
writes (20_memory.md R55). -/

namespace Sys2Proof.Machine

variable {n : Nat}

/-- A byte index with no buffer byte behind it reads as 0. -/
theorem byteAt_of_le (buf : Vector Byte n) {i : Nat} (h : n ≤ i) : byteAt buf i = 0 := by
  simp [byteAt, Vector.getElem?_eq_none h]

theorem byteAt_of_lt (buf : Vector Byte n) {i : Nat} (h : i < n) : byteAt buf i = buf[i] := by
  simp [byteAt, h]

@[simp] theorem byteAt_replicate (b : Byte) (i : Nat) :
    byteAt (Vector.replicate n b) i = if i < n then b else 0 := by
  by_cases h : i < n
  · simp [byteAt_of_lt _ h, h]
  · simp [byteAt_of_le _ (Nat.le_of_not_lt h), h]

theorem byteAt_ofFn (f : Fin n → Byte) (i : Nat) :
    byteAt (Vector.ofFn f) i = if h : i < n then f ⟨i, h⟩ else 0 := by
  by_cases h : i < n
  · simp [byteAt_of_lt _ h, h]
  · simp [byteAt_of_le _ (Nat.le_of_not_lt h), h]

/-- A byte read after a byte written: the written one at its index, every other as before. -/
theorem byteAt_setByte (buf : Vector Byte n) (i j : Nat) (b : Byte) :
    byteAt (setByte buf i b) j = if i = j ∧ j < n then b else byteAt buf j := by
  by_cases hj : j < n
  · simp [byteAt_of_lt _ hj, setByte, Vector.getElem_setIfInBounds, hj]
  · simp [byteAt_of_le _ (Nat.le_of_not_lt hj), hj]

/-- Buffers are equal where every byte is. -/
theorem buffer_ext {a b : Vector Byte n} (h : ∀ i, i < n → byteAt a i = byteAt b i) : a = b := by
  ext1 i hi
  simpa [byteAt_of_lt _ hi] using h i hi

/-- The bytes after a bus word is written: lane `j - i` at the byte indexes `i` to `i + 3`, every other as before. -/
theorem byteAt_writeLanes (buf : Vector Byte n) (i : Nat) (v : Word) (j : Nat) :
    byteAt (writeLanes buf i v) j =
      if i ≤ j ∧ j < i + 4 ∧ j < n then v.extractLsb' (8 * (j - i)) 8 else byteAt buf j := by
  have h4 : List.range 4 = [0, 1, 2, 3] := rfl
  simp only [writeLanes, h4, List.foldl_cons, List.foldl_nil, byteAt_setByte]
  by_cases hn : j < n
  · by_cases h : i ≤ j ∧ j < i + 4
    · obtain ⟨k, rfl⟩ := Nat.exists_eq_add_of_le h.1
      have hk : k < 4 := by omega
      rw [if_pos (⟨h.1, h.2, hn⟩ : i ≤ i + k ∧ i + k < i + 4 ∧ i + k < n)]
      interval_cases k <;> simp at hn ⊢ <;> simp [hn]
    · have h0 : ¬ (i ≤ j ∧ j < i + 4 ∧ j < n) := fun hh => h ⟨hh.1, hh.2.1⟩
      rw [if_neg h0]
      simp only [hn, and_true]
      repeat rw [if_neg (by omega)]
  · simp [hn]

/-- Writing the same word twice leaves what writing it once leaves (20_memory.md R63). -/
theorem writeLanes_writeLanes (buf : Vector Byte n) (i : Nat) (v : Word) :
    writeLanes (writeLanes buf i v) i v = writeLanes buf i v := by
  refine buffer_ext fun j _ => ?_
  simp only [byteAt_writeLanes]
  split <;> rfl

/-- Lane `j` of a bus word that reads a buffer is the buffer byte `i + j` (20_memory.md R55). -/
theorem laneWord_lane (buf : Vector Byte n) (i : Nat) {j : Nat} (h : j < 4) :
    (laneWord buf i).extractLsb' (8 * j) 8 = byteAt buf (i + j) := by
  ext k hk
  rw [BitVec.getElem_extractLsb', laneWord]
  interval_cases j <;> grind

/-- A byte joined below a bit vector, as a number. -/
theorem toNat_append_byte {m : Nat} (x : BitVec m) (b : Byte) : (x ++ b).toNat = x.toNat * 2 ^ 8 + b.toNat := by
  rw [BitVec.toNat_append, Nat.shiftLeft_eq, Nat.mul_comm, ← Nat.two_pow_add_eq_or_of_lt b.isLt]

/-- A bus word that reads only zero bytes is 0. -/
theorem laneWord_eq_zero {buf : Vector Byte n} {i : Nat} (h : ∀ j, j < 4 → byteAt buf (i + j) = 0) :
    laneWord buf i = 0 := by
  have h0 := h 0 (by omega)
  simp only [Nat.add_zero] at h0
  simp [laneWord, h 1 (by omega), h 2 (by omega), h 3 (by omega), h0]

/-- The elements of a state do not depend on the model's two fields. -/
@[simp] theorem elements_setInputs (s : State) (l : List Input) : (s.setInputs l).elements = s.elements := rfl

@[simp] theorem elements_setResponse (s : State) (r : Option Response) :
    (s.setResponse r).elements = s.elements := rfl

end Sys2Proof.Machine
end

