-- ==== Sys2Proof/Laws/Base32.lean ====
section
/-! SUPPORT. What the decoder's shared operations do: `emit`, `flush` and `pushSymbol` change nothing but the key, the
group and B32ST, and the bytes they append are the whole bytes of ACC from the top, while space remains
(41_base32.md R105 to R107, R114). -/

namespace Sys2Proof.Machine

/-! ### The alphabet -/

/-- A symbol index is a character's position in the alphabet (41_base32.md R101, R102). -/
theorem sym_alphabet (v : BitVec 5) : (alphabet[v.toNat]?).bind sym = some v := by
  revert v; decide

/-! ### emit -/

/-- The first `n` turns of the loop of `emit k`. -/
def emitUpTo (k n : Nat) (s : State) : State := (List.range n).foldl (emitByte k) s

@[simp] theorem emitUpTo_zero (k : Nat) (s : State) : emitUpTo k 0 s = s := rfl

theorem emitUpTo_succ (k n : Nat) (s : State) : emitUpTo k (n + 1) s = emitByte k (emitUpTo k n s) n := by
  simp [emitUpTo, List.range_succ, List.foldl_append]

theorem emit_eq_emitUpTo (k : Nat) (s : State) : emit k s = emitUpTo k (5 * k / 8) s := rfl

/-- `emit` changes KEY and KLEN only. -/
theorem emitUpTo_frame (k n : Nat) (s : State) : ∃ key klen, emitUpTo k n s = s.setKey key klen := by
  induction n with
  | zero => exact ⟨s.key, s.klen, rfl⟩
  | succ n ih =>
    obtain ⟨key, klen, h⟩ := ih
    rw [emitUpTo_succ, h, emitByte]
    split
    · exact ⟨_, _, rfl⟩
    · exact ⟨key, klen, rfl⟩

theorem emit_frame (k : Nat) (s : State) : emit k s = s.setKey (emit k s).key (emit k s).klen := by
  obtain ⟨key, klen, h⟩ := emitUpTo_frame k (5 * k / 8) s
  rw [emit_eq_emitUpTo, h]
  rfl

@[simp] theorem emitUpTo_kmax (k n : Nat) (s : State) : (emitUpTo k n s).kmax = s.kmax := by
  obtain ⟨_, _, h⟩ := emitUpTo_frame k n s
  rw [h]; rfl

@[simp] theorem emitUpTo_acc (k n : Nat) (s : State) : (emitUpTo k n s).acc = s.acc := by
  obtain ⟨_, _, h⟩ := emitUpTo_frame k n s
  rw [h]; rfl

/-- KLEN after one turn: one more where there is space (41_base32.md R105). -/
theorem emitByte_klen (k j : Nat) (s : State) :
    (emitByte k s j).klen.toNat = if s.klen.toNat < s.kmax.toNat then s.klen.toNat + 1 else s.klen.toNat := by
  have hmax := s.kmax.isLt
  by_cases h : s.klen.toNat < s.kmax.toNat
  · have hlt : s.klen < s.kmax := h
    rw [if_pos h, emitByte, if_pos hlt, State.setKey_klen, BitVec.toNat_add]
    have h1 : (1 : BitVec 7).toNat = 1 := rfl
    omega
  · have hge : ¬ s.klen < s.kmax := h
    rw [if_neg h, emitByte, if_neg hge]

/-- The key bytes after one turn: byte `j` of the symbols at KLEN where there is space (41_base32.md R105). -/
theorem emitByte_key (k j : Nat) (s : State) (i : Nat) :
    byteAt (emitByte k s j).key i =
      if s.klen.toNat < s.kmax.toNat ∧ s.klen.toNat = i ∧ i < Config.keyMax then
        s.acc.extractLsb' (5 * k - 8 - 8 * j) 8
      else byteAt s.key i := by
  by_cases h : s.klen.toNat < s.kmax.toNat
  · have hlt : s.klen < s.kmax := h
    rw [emitByte, if_pos hlt, State.setKey_key, byteAt_setByte]
    by_cases hi : s.klen.toNat = i ∧ i < Config.keyMax
    · rw [if_pos hi, if_pos ⟨h, hi⟩]
    · rw [if_neg hi, if_neg fun hh => hi hh.2]
  · have hge : ¬ s.klen < s.kmax := h
    rw [emitByte, if_neg hge, if_neg fun hh => h hh.1]

/-- KLEN after the first `n` bytes: as many as there is space for (41_base32.md R105, R114). -/
theorem emitUpTo_klen (k n : Nat) {s : State} (h : s.klen.toNat ≤ s.kmax.toNat) :
    (emitUpTo k n s).klen.toNat = min (s.klen.toNat + n) s.kmax.toNat := by
  induction n with
  | zero => simp [h]
  | succ n ih =>
    rw [emitUpTo_succ, emitByte_klen, emitUpTo_kmax, ih]
    split <;> omega

/-- The key bytes after the first `n` bytes are appended (41_base32.md R105). -/
theorem emitUpTo_key (k n : Nat) {s : State} (h : s.klen.toNat ≤ s.kmax.toNat)
    (hmax : s.kmax.toNat ≤ Config.keyMax) (i : Nat) :
    byteAt (emitUpTo k n s).key i =
      if s.klen.toNat ≤ i ∧ i < (emitUpTo k n s).klen.toNat then
        s.acc.extractLsb' (5 * k - 8 - 8 * (i - s.klen.toNat)) 8
      else byteAt s.key i := by
  induction n with
  | zero =>
    have : ¬ (s.klen.toNat ≤ i ∧ i < s.klen.toNat) := by omega
    simp [this]
  | succ n ih =>
    rw [emitUpTo_klen k n h] at ih
    rw [emitUpTo_klen k (n + 1) h, emitUpTo_succ, emitByte_key, emitUpTo_kmax, emitUpTo_acc, emitUpTo_klen k n h, ih]
    by_cases hi : min (s.klen.toNat + n) s.kmax.toNat < s.kmax.toNat ∧ min (s.klen.toNat + n) s.kmax.toNat = i
    · have h64 : i < Config.keyMax := by omega
      have hin : i - s.klen.toNat = n := by omega
      rw [if_pos ⟨hi.1, hi.2, h64⟩, if_pos (by omega), hin]
    · rw [if_neg fun hh => hi ⟨hh.1, hh.2.1⟩]
      by_cases hc : s.klen.toNat ≤ i ∧ i < min (s.klen.toNat + n) s.kmax.toNat
      · rw [if_pos hc, if_pos (by omega)]
      · rw [if_neg hc, if_neg (by omega)]

/-- KLEN after `emit k` (41_base32.md R105, R114). -/
theorem emit_klen (k : Nat) {s : State} (h : s.klen.toNat ≤ s.kmax.toNat) :
    (emit k s).klen.toNat = min (s.klen.toNat + 5 * k / 8) s.kmax.toNat := emitUpTo_klen k _ h

/-- The key bytes after `emit k` (41_base32.md R105). -/
theorem emit_key (k : Nat) {s : State} (h : s.klen.toNat ≤ s.kmax.toNat) (hmax : s.kmax.toNat ≤ Config.keyMax)
    (i : Nat) :
    byteAt (emit k s).key i =
      if s.klen.toNat ≤ i ∧ i < (emit k s).klen.toNat then
        s.acc.extractLsb' (5 * k - 8 - 8 * (i - s.klen.toNat)) 8
      else byteAt s.key i := emitUpTo_key k _ h hmax i

/-! ### flush -/

/-- `flush` changes KEY, KLEN and the group only. -/
theorem flush_frame (s : State) : flush s = (s.setKey (flush s).key (flush s).klen).setGroup 0 0 := by
  unfold flush
  split
  · rw [emit_frame s.nsym.toNat s]
    rfl
  · rfl

/-- A flush is an emission of the NSYM symbols in ACC; with none, it emits no byte (41_base32.md R106). -/
theorem flush_eq_emit (s : State) : flush s = (emit s.nsym.toNat s).setGroup 0 0 := by
  unfold flush
  split
  · rfl
  · next h =>
    have h0 : s.nsym.toNat = 0 := by omega
    rw [h0]
    rfl

/-- KLEN after a flush (41_base32.md R113, R114). -/
theorem flush_klen {s : State} (h : s.klen.toNat ≤ s.kmax.toNat) :
    (flush s).klen.toNat = min (s.klen.toNat + 5 * s.nsym.toNat / 8) s.kmax.toNat := by
  rw [flush_eq_emit]
  exact emit_klen _ h

/-- The key bytes after a flush (41_base32.md R113). -/
theorem flush_key {s : State} (h : s.klen.toNat ≤ s.kmax.toNat) (hmax : s.kmax.toNat ≤ Config.keyMax) (i : Nat) :
    byteAt (flush s).key i =
      if s.klen.toNat ≤ i ∧ i < (flush s).klen.toNat then
        s.acc.extractLsb' (5 * s.nsym.toNat - 8 - 8 * (i - s.klen.toNat)) 8
      else byteAt s.key i := by
  rw [flush_eq_emit]
  exact emit_key _ h hmax i

/-- A flush that leaves KLEN = 0 has appended no byte: it leaves KEY and KLEN (41_base32.md R105, R106). -/
theorem flush_of_klen_zero {s : State} (hle : s.klen.toNat ≤ s.kmax.toNat) (hmax : s.kmax.toNat ≤ Config.keyMax)
    (h0 : (flush s).klen = 0) : flush s = s.setGroup 0 0 := by
  have hk := flush_klen hle
  rw [h0, show (0 : BitVec 7).toNat = 0 from rfl] at hk
  have hz : s.klen.toNat = 0 := by omega
  have hkey : (flush s).key = s.key := by
    refine buffer_ext fun i _ => ?_
    rw [flush_key hle hmax, if_neg]
    simp [h0]
  have hklen : (flush s).klen = s.klen := by
    rw [h0]
    exact (BitVec.eq_of_toNat_eq hz).symm
  rw [flush_frame s, hkey, hklen]
  rfl

/-! ### pushSymbol -/

/-- The accumulator after a symbol joins it (41_base32.md R107). -/
def joined (v : BitVec 5) (s : State) : BitVec 40 := (s.acc <<< 5) ||| v.setWidth 40

/-- ACC before the shift, times 32, plus the symbol, kept to 40 bits (00_scope.md R9, R10). -/
theorem joined_toNat (v : BitVec 5) (s : State) : (joined v s).toNat = (s.acc.toNat * 2 ^ 5 + v.toNat) % 2 ^ 40 := by
  have hv : (v.setWidth 40).toNat = v.toNat := by simp; omega
  have hsl : (s.acc <<< 5).toNat = 2 ^ 5 * (s.acc.toNat % 2 ^ 35) := by
    rw [BitVec.toNat_shiftLeft, Nat.shiftLeft_eq]
    omega
  unfold joined
  rw [BitVec.toNat_or, hv, hsl, ← Nat.two_pow_add_eq_or_of_lt v.isLt]
  have := v.isLt
  omega

/-- A symbol that does not fill the group joins it and changes nothing else (41_base32.md R107). -/
theorem pushSymbol_partial (v : BitVec 5) {s : State} (h : s.nsym.toNat < 7) :
    pushSymbol v s = s.setGroup (joined v s) (BitVec.ofNat 3 (s.nsym.toNat + 1)) := by
  have h8 : ¬ s.nsym.toNat + 1 = 8 := by omega
  simp [pushSymbol, h8, joined]

/-- The state after the 8th symbol's emission, before B32ST is settled (41_base32.md R107). -/
def groupEmitted (v : BitVec 5) (s : State) : State := (emit 8 (s.setGroup (joined v s) 0)).setGroup 0 0

/-- The 8th symbol of a group emits it, and stops the decoder where KEY is full (41_base32.md R107, R114). -/
theorem pushSymbol_full (v : BitVec 5) {s : State} (h : s.nsym.toNat = 7) :
    pushSymbol v s =
      if (groupEmitted v s).klen = (groupEmitted v s).kmax then (groupEmitted v s).setB32st .stopped
      else groupEmitted v s := by
  have h8 : s.nsym.toNat + 1 = 8 := by omega
  simp only [pushSymbol]
  rw [if_pos h8]
  rfl

theorem groupEmitted_frame (v : BitVec 5) (s : State) :
    groupEmitted v s = (s.setKey (groupEmitted v s).key (groupEmitted v s).klen).setGroup 0 0 := by
  unfold groupEmitted
  have h := emit_frame 8 (s.setGroup (joined v s) 0)
  generalize emit 8 (s.setGroup (joined v s) 0) = t at h ⊢
  exact (congrArg (fun x => State.setGroup x 0 0) h).trans rfl

theorem groupEmitted_klen (v : BitVec 5) {s : State} (h : s.klen.toNat ≤ s.kmax.toNat) :
    (groupEmitted v s).klen.toNat = min (s.klen.toNat + 5) s.kmax.toNat := by
  rw [groupEmitted, State.setGroup_klen, emit_klen (s := s.setGroup (joined v s) 0) 8 h]
  rfl

theorem groupEmitted_key (v : BitVec 5) {s : State} (h : s.klen.toNat ≤ s.kmax.toNat)
    (hmax : s.kmax.toNat ≤ Config.keyMax) (i : Nat) :
    byteAt (groupEmitted v s).key i =
      if s.klen.toNat ≤ i ∧ i < (groupEmitted v s).klen.toNat then
        (joined v s).extractLsb' (32 - 8 * (i - s.klen.toNat)) 8
      else byteAt s.key i := by
  rw [groupEmitted, State.setGroup_key, State.setGroup_klen,
    emit_key (s := s.setGroup (joined v s) 0) 8 h hmax i]
  rfl

/-- A pushed symbol changes B32ST, KEY, KLEN and the group only. -/
theorem pushSymbol_frame (v : BitVec 5) (s : State) : ∃ x key klen acc nsym,
    pushSymbol v s = ((s.setKey key klen).setGroup acc nsym).setB32st x := by
  by_cases h : s.nsym.toNat = 7
  · rw [pushSymbol_full v h]
    have hf := groupEmitted_frame v s
    generalize groupEmitted v s = t at hf ⊢
    split
    · exact ⟨_, _, _, _, _, congrArg (fun x => State.setB32st x .stopped) hf⟩
    · exact ⟨s.b32st, t.key, t.klen, 0, 0, hf.trans rfl⟩
  · rw [pushSymbol_partial v (by omega)]
    exact ⟨s.b32st, s.key, s.klen, joined v s, BitVec.ofNat 3 (s.nsym.toNat + 1), rfl⟩

/-- The end of input changes B32ST, KEY, KLEN and the group only. -/
theorem endInput_frame (s : State) : ∃ key klen acc nsym,
    endInput s = ((s.setKey key klen).setGroup acc nsym).setB32st .finished := by
  unfold endInput
  split
  · have hf := flush_frame s
    generalize flush s = t at hf ⊢
    exact ⟨_, _, _, _, congrArg (fun x => State.setB32st x .finished) hf⟩
  · exact ⟨s.key, s.klen, s.acc, s.nsym, rfl⟩

end Sys2Proof.Machine
end

