-- ==== Sys2Proof/Laws/Decode.lean ====
section
/-! SUPPORT. The fields of an encoded word, and what decoding can answer (30_encoding.md R81, R84). -/

namespace Sys2Proof

/-- A word is its three fields (30_encoding.md R81). -/
theorem word_fields (w : Word) : w = rsvField w ++ argField w ++ opField w := by
  ext k hk
  simp only [rsvField, argField, opField]
  grind

@[simp] theorem rsvField_append (r : BitVec 16) (a o : BitVec 8) : rsvField (r ++ a ++ o) = r := by
  ext k hk
  simp only [rsvField, BitVec.getElem_extractLsb']
  grind

@[simp] theorem argField_append (r : BitVec 16) (a o : BitVec 8) : argField (r ++ a ++ o) = a := by
  ext k hk
  simp only [argField, BitVec.getElem_extractLsb']
  grind

@[simp] theorem opField_append (r : BitVec 16) (a o : BitVec 8) : opField (r ++ a ++ o) = o := by
  ext k hk
  simp only [opField, BitVec.getElem_extractLsb']
  grind

theorem withoutArg_ok {w : Word} {i j : Instr} : withoutArg w i = .ok j ↔ argField w = 0 ∧ i = j := by
  unfold withoutArg
  split <;> simp_all

/-- A word that decodes has RSV = 0. -/
theorem rsvField_of_decode {w : Word} {i : Instr} (h : decode w = .ok i) : rsvField w = 0 := by
  unfold decode at h
  split at h
  · assumption
  · cases h

/-- A decoded word's OP and ARG are the command's opcode and argument. -/
theorem fields_of_decode {w : Word} {i : Instr} (h : decode w = .ok i) :
    opField w = i.opcode ∧ argField w = i.arg := by
  unfold decode at h
  rw [if_pos (rsvField_of_decode (by unfold decode; exact h))] at h
  have op : ∀ {n : Nat}, (opField w).toNat = n → opField w = BitVec.ofNat 8 n := by
    intro n hn
    rw [← hn, BitVec.ofNat_toNat, BitVec.setWidth_eq]
  split at h
  all_goals first
    | (next hop => obtain ⟨ha, rfl⟩ := withoutArg_ok.mp h; exact ⟨op hop, ha⟩)
    | (next hop => cases h; refine ⟨op hop, ?_⟩; simp [Instr.arg])
    | (cases h)

end Sys2Proof
end

