-- ==== Sys2Proof/Laws/PerInstr.lean ====
section
/-! SUPPORT. What every command's word holds, per command: RSV = 0, the command's opcode in OP and its argument in ARG
(30_encoding.md R81, R83). -/

namespace Sys2Proof.Laws.EncodedFields

/-- The three fields of a command's word. -/
def Statement (i : Instr) : Prop :=
  rsvField (encode i) = 0 ∧ opField (encode i) = i.opcode ∧ argField (encode i) = i.arg

theorem nop : Statement .nop := by simp [Statement, encode]

theorem b32Init (maxLen : Nat) : Statement (.b32Init maxLen) := by simp [Statement, encode]

theorem b32Push (char : Byte) : Statement (.b32Push char) := by simp [Statement, encode]

theorem b32Finish : Statement .b32Finish := by simp [Statement, encode]

theorem ctrEnc : Statement .ctrEnc := by simp [Statement, encode]

theorem trunc (digits : Nat) : Statement (.trunc digits) := by simp [Statement, encode]

theorem srst : Statement .srst := by simp [Statement, encode]

end Sys2Proof.Laws.EncodedFields
end

