-- ==== Sys2Proof/Laws/Token.lean ====
section
/-! SUPPORT. What CTR_ENC and TRUNC compute, byte by byte (42_counter.md R131, 43_truncate.md R145 to R149), and what
they leave alone. -/

namespace Sys2Proof.Machine

/-- A counter byte (42_counter.md R131). -/
theorem byteAt_counterBytes (c : BitVec 64) {i : Nat} (h : i < 8) :
    byteAt (counterBytes c) i = c.extractLsb' (8 * (7 - i)) 8 := by
  simp [counterBytes, byteAt_ofFn, h]

/-- The offset is the last digest byte modulo 16 (43_truncate.md R145). -/
theorem truncOffset_toNat (digest : Vector Byte Config.digestLen) :
    (truncOffset digest).toNat = (byteAt digest 19).toNat % 16 := by
  unfold truncOffset
  have h : ∀ b : Byte, ((b &&& 0x0F).setWidth 4).toNat = b.toNat % 16 := by decide
  exact h _

/-- The 31-bit value as a number (43_truncate.md R146). -/
theorem truncRaw_toNat (digest : Vector Byte Config.digestLen) :
    let off := (byteAt digest 19).toNat % 16
    (truncRaw digest).toNat = (byteAt digest off).toNat % 128 * 2 ^ 24 + (byteAt digest (off + 1)).toNat * 2 ^ 16
      + (byteAt digest (off + 2)).toNat * 2 ^ 8 + (byteAt digest (off + 3)).toNat := by
  intro off
  have h : ∀ b : Byte, ((b &&& 0x7F).setWidth 7).toNat = b.toNat % 128 := by decide
  have hoff : (truncOffset digest).toNat = off := truncOffset_toNat digest
  simp only [truncRaw, hoff]
  refine (toNat_append_byte _ _).trans ?_
  rw [toNat_append_byte, toNat_append_byte, h]
  ring

/-- A token byte: digit `i` of the token, then zeros (43_truncate.md R149). -/
theorem byteAt_tokenBytes (tv d i : Nat) :
    byteAt (tokenBytes tv d) i = if i < Config.tokenMax ∧ i < d then tokenDigit tv d i else 0 := by
  rw [tokenBytes, byteAt_ofFn]
  by_cases h : i < Config.tokenMax
  · simp [h]
  · simp [h]

/-- A token digit is the ASCII code of a decimal digit (43_truncate.md R148). -/
theorem tokenDigit_toNat (tv d i : Nat) :
    (tokenDigit tv d i).toNat = 0x30 + tv / 10 ^ (d - 1 - i) % 10 := by
  have : tv / 10 ^ (d - 1 - i) % 10 < 10 := Nat.mod_lt _ (by decide)
  simp only [tokenDigit, BitVec.toNat_ofNat]
  omega

/-- A token value is below 10^d and below 2^31 (43_truncate.md R147). -/
theorem tokenValue_lt (raw : BitVec 31) (d : Nat) : tokenValue raw d < 10 ^ d ∧ tokenValue raw d < 2 ^ 31 :=
  ⟨Nat.mod_lt _ (by positivity), Nat.lt_of_le_of_lt (Nat.mod_le _ _) raw.isLt⟩

/-- TVAL holds the token value whole (10_state.md R29). -/
theorem tokenValue_tval (raw : BitVec 31) (d : Nat) : (BitVec.ofNat 32 (tokenValue raw d)).toNat = tokenValue raw d := by
  have := (tokenValue_lt raw d).2
  simp only [BitVec.toNat_ofNat]
  omega

/-- The outcomes of TRUNC: a failing check, which writes TVALID and ERR only, or the token (43_truncate.md R144). -/
theorem execTrunc_cases (d : Nat) (s : State) :
    (∃ c, c ≠ .ok ∧ execTrunc d s = .next ((s.setTvalid false).setErr c)) ∨
    (1 ≤ d ∧ d ≤ 10 ∧ s.merr = false ∧ s.dv = true ∧ execTrunc d s = .next ((renderToken d s).setErr .ok)) := by
  unfold execTrunc
  split
  · exact .inl ⟨.badDigits, by decide, rfl⟩
  · split
    · exact .inl ⟨.macFail, by decide, rfl⟩
    · split
      · exact .inl ⟨.noDigest, by decide, rfl⟩
      · next h1 h2 h3 =>
        refine .inr ⟨?_, ?_, ?_, ?_, rfl⟩
        · simp only [Config.digitsMin, Config.digitsMax] at h1; omega
        · simp only [Config.digitsMin, Config.digitsMax] at h1; omega
        · simpa using h2
        · simpa using h3

end Sys2Proof.Machine
end

