-- ==== Sys2Proof/Laws/Step.lean ====
section
/-! SUPPORT. What each command and each step can do, said once: case lemmas that later proofs cite instead of
unfolding a meaning or the step. -/

namespace Sys2Proof.Machine

/-! ### Commands -/

/-- The state in which a B32_INIT that succeeds leaves the machine (41_base32.md R103, R104). -/
def decodeStarted (maxLen : Nat) (s : State) : State :=
  ((((s.setKey (Vector.replicate _ 0) 0).setGroup 0 0).setKmax (BitVec.ofNat 7 maxLen)).setB32st
    (if maxLen = 0 then .stopped else .active)).setErr .ok

/-- B32_INIT: refused over the capacity, else a decode starts (41_base32.md R103, R119). -/
theorem execB32Init_cases (m : Nat) (s : State) :
    (64 < m ∧ execB32Init m s = .next (s.setErr .badMaxlen)) ∨
    (m ≤ 64 ∧ execB32Init m s = .next (decodeStarted m s)) := by
  unfold execB32Init
  by_cases h : Config.keyMax < m
  · exact .inl ⟨h, by rw [if_pos h]; rfl⟩
  · exact .inr ⟨by simp only [Config.keyMax] at h; omega, by rw [if_neg h]; rfl⟩

/-- B32_PUSH, state by state (41_base32.md R107, R108). -/
theorem execB32Push_cases (c : Byte) (s : State) :
    (s.b32st = .idle ∧ execB32Push c s = .next (s.setErr .seq)) ∨
    ((s.b32st = .stopped ∨ s.b32st = .finished) ∧ execB32Push c s = .next (s.setErr .ok)) ∨
    (s.b32st = .active ∧ sym c = none ∧
      execB32Push c s = .next (((flush s).setB32st .stopped).setErr .ok)) ∨
    (∃ v, s.b32st = .active ∧ sym c = some v ∧ execB32Push c s = .next ((pushSymbol v s).setErr .ok)) := by
  unfold execB32Push
  split
  · next h => exact .inl ⟨h, rfl⟩
  · next h => exact .inr (.inl ⟨.inl h, rfl⟩)
  · next h => exact .inr (.inl ⟨.inr h, rfl⟩)
  · next h =>
    split
    · next hc => exact .inr (.inr (.inl ⟨h, hc, rfl⟩))
    · next v hc => exact .inr (.inr (.inr ⟨v, h, hc, rfl⟩))

/-- B32_FINISH, in IDLE and elsewhere (41_base32.md R109). -/
theorem execB32Finish_cases (s : State) :
    (s.b32st = .idle ∧ execB32Finish s = .next (s.setErr .seq)) ∨
    (s.b32st ≠ .idle ∧
      execB32Finish s = .next ((endInput s).setErr (if (endInput s).klen = 0 then .emptyKey else .ok))) := by
  unfold execB32Finish
  split
  · next h => exact .inl ⟨h, rfl⟩
  · next h => exact .inr ⟨h, rfl⟩

/-- B32_FINISH with EMPTY_KEY leaves every element but B32ST, NSYM, ACC and ERR: no key byte, KLEN or KMAX
(41_base32.md R109, R110; log 8). -/
theorem execB32Finish_emptyKey {s t : State} (hle : s.klen.toNat ≤ s.kmax.toNat)
    (hmax : s.kmax.toNat ≤ Config.keyMax) (h : execB32Finish s = .next t) (he : t.err = .emptyKey) :
    t = ((s.setGroup t.acc t.nsym).setB32st .finished).setErr .emptyKey := by
  rcases execB32Finish_cases s with ⟨-, e⟩ | ⟨-, e⟩ <;> cases e.symm.trans h
  · cases he
  · have hc : (endInput s).klen = 0 := by
      by_contra hc
      rw [if_neg hc] at he
      cases he
    rw [if_pos hc]
    by_cases ha : s.b32st = .active
    · have hend : endInput s = (flush s).setB32st .finished := by rw [endInput, if_pos ha]
      rw [hend] at hc ⊢
      rw [flush_of_klen_zero hle hmax hc]
      rfl
    · have hend : endInput s = s.setB32st .finished := by rw [endInput, if_neg ha]
      rw [hend]
      rfl

/-- No command touches the model's own two fields. -/
theorem exec_port {i : Instr} {s t : State} (h : exec i s = .next t) :
    t.inputs = s.inputs ∧ t.response = s.response := by
  cases i with
  | nop => cases h; exact ⟨rfl, rfl⟩
  | b32Init m =>
    rcases execB32Init_cases m s with ⟨-, e⟩ | ⟨-, e⟩ <;> (cases e.symm.trans h; exact ⟨rfl, rfl⟩)
  | b32Push c =>
    rcases execB32Push_cases c s with ⟨-, e⟩ | ⟨-, e⟩ | ⟨-, -, e⟩ | ⟨v, -, -, e⟩ <;> cases e.symm.trans h
    · exact ⟨rfl, rfl⟩
    · exact ⟨rfl, rfl⟩
    · rw [flush_frame s]; exact ⟨rfl, rfl⟩
    · obtain ⟨_, _, _, _, _, hf⟩ := pushSymbol_frame v s
      rw [hf]; exact ⟨rfl, rfl⟩
  | b32Finish =>
    rcases execB32Finish_cases s with ⟨-, e⟩ | ⟨-, e⟩ <;> cases e.symm.trans h
    · exact ⟨rfl, rfl⟩
    · obtain ⟨_, _, _, _, hf⟩ := endInput_frame s
      rw [hf]; exact ⟨rfl, rfl⟩
  | ctrEnc => cases h; exact ⟨rfl, rfl⟩
  | trunc d =>
    rcases execTrunc_cases d s with ⟨c, -, e⟩ | ⟨-, -, -, -, e⟩ <;> (cases e.symm.trans h; exact ⟨rfl, rfl⟩)
  | srst => cases h; exact ⟨rfl, rfl⟩

/-- A command word runs its command, or sets ERR where it is illegal (30_encoding.md R84). -/
theorem runWord_cases (w : Word) (s : State) :
    (∃ i, decode w = .ok i ∧ runWord w s = exec i s) ∨
    (∃ e, decode w = .error e ∧ runWord w s = .next (s.setErr .illegal)) := by
  unfold runWord
  split
  · next i h => exact .inl ⟨i, h, rfl⟩
  · next e h => exact .inr ⟨e, h, rfl⟩

/-! ### Steps -/

/-- What a step that answers a next state has done: waited, reset, refused an access with a bus error, served a read,
written a register, or run a command word (20_memory.md R57, R58, R62; 70_reset_and_hazards.md R191). -/
theorem step_cases {s t : State} (h : step s = .next t) :
    (s.inputs = [] ∧ t = s) ∨
    (∃ rest, s.inputs = .hardwareReset :: rest ∧ t = hardwareReset (s.setInputs rest)) ∨
    (∃ a rest, s.inputs = .access a :: rest ∧ a.off < Config.windowSize ∧
      (a.isBusError = true ∨ a.kind = .read) ∧
      t = (s.setInputs rest).setResponse (some (a.response (s.setInputs rest)))) ∨
    (∃ m off v rest, s.inputs = .access ⟨m, off, 4, .write v⟩ :: rest ∧ off < Config.windowSize ∧ off % 4 = 0 ∧
      off ≠ 0 ∧ t = (writeWord off v (s.setInputs rest)).setResponse (some ⟨m, false, none⟩)) ∨
    (∃ m w rest u, s.inputs = .access (commandWrite m w) :: rest ∧ runWord w (s.setInputs rest) = .next u ∧
      t = u.setResponse (some ⟨m, false, none⟩)) := by
  unfold step takeInput at h
  split at h
  · next hi => cases h; exact .inl ⟨hi, rfl⟩
  · next a rest hi =>
    unfold serveAccess at h
    split at h
    · cases h
    · next hw =>
      have hlt : a.off < Config.windowSize := by omega
      by_cases hb : a.isBusError = true
      · rw [if_pos hb] at h
        cases h
        exact .inr (.inr (.inl ⟨a, rest, hi, hlt, .inl hb, rfl⟩))
      · rw [if_neg hb] at h
        have hb' : a.size = 4 ∧ a.off % 4 = 0 := by
          simpa [Access.isBusError] using hb
        obtain ⟨m, off, size, kind⟩ := a
        obtain ⟨rfl, hoff⟩ : size = 4 ∧ off % 4 = 0 := hb'
        have hnb : (Access.mk m off 4 kind).isBusError = false := by simpa using hb
        cases kind with
        | read =>
          cases h
          exact .inr (.inr (.inl ⟨_, rest, hi, hlt, .inr rfl, rfl⟩))
        | write v =>
          have hr : (Access.mk m off 4 (.write v)).response (s.setInputs rest) = ⟨m, false, none⟩ := by
            simp [Access.response, hnb]
          rw [hr] at h
          by_cases h0 : off = 0
          · subst h0
            change withResponse _ (runWord v (s.setInputs rest)) = _ at h
            cases hu : runWord v (s.setInputs rest) with
            | next u =>
              rw [hu] at h
              cases h
              exact .inr (.inr (.inr (.inr ⟨m, v, rest, u, hi, hu, rfl⟩)))
            | fault f => rw [hu] at h; cases h
            | refused r => rw [hu] at h; cases h
          · have hp : performAccess ⟨m, off, 4, .write v⟩ (s.setInputs rest)
                = .next (writeWord off v (s.setInputs rest)) := by simp [performAccess, h0]
            rw [hp] at h
            cases h
            exact .inr (.inr (.inr (.inl ⟨m, off, v, rest, hi, hlt, hoff, h0, rfl⟩)))
  · next rest hi => cases h; exact .inr (.inl ⟨rest, hi, rfl⟩)

/-- A write to a register other than CMD changes COUNTER, DV and MERR, or DIGEST, and nothing else
(20_memory.md R62). -/
theorem writeWord_frame (off : Nat) (v : Word) (s : State) : ∃ c dv merr g,
    writeWord off v s = ((s.setCounter c).setDstat dv merr).setDigest g := by
  unfold writeWord
  split
  · exact ⟨cntHiWord s ++ v, s.dv, s.merr, s.digest, rfl⟩
  · split
    · exact ⟨v ++ cntLoWord s, s.dv, s.merr, s.digest, rfl⟩
    · split
      · exact ⟨s.counter, v.getLsbD 0, v.getLsbD 1, s.digest, rfl⟩
      · split
        · exact ⟨s.counter, s.dv, s.merr, writeLanes s.digest (off - 0x0C0) v, rfl⟩
        · exact ⟨s.counter, s.dv, s.merr, s.digest, rfl⟩

/-! ### Runs -/

/-- A run whose first step answers a next state is that state's run. -/
theorem run_succ_of_next {n : Nat} {s t : State} (h : step s = .next t) :
    Host.Core.run Sys2Proof.core (n + 1) s = Host.Core.run Sys2Proof.core n t := by
  have unfold_run : ∀ (M : Host.Core) (x y : M.State), M.step x = .next y → M.run (n + 1) x = M.run n y := by
    intro M x y hxy
    rw [Host.Core.run, hxy]
  exact unfold_run Sys2Proof.core s t h

/-- Commands run one after the other: the first's next state starts the rest. -/
theorem runInstrs_cons {i : Instr} {is : List Instr} {s t : State} (h : exec i s = .next t) :
    runInstrs (i :: is) s = runInstrs is t := by
  simp [runInstrs, h]

end Sys2Proof.Machine
end

