-- ==== Sys2Proof/Tests/Slice0.lean ====
section
/-! SUPPORT. Tests of the model against values of spec/ (worked examples and rows of 95_test_vectors.md), and one witness
theorem per statement that has hypotheses. -/

namespace Sys2Proof.Machine.Tests

open Sys2Proof Sys2Proof.Machine Sys2Proof.Claims

/-! ### Well-formedness: the ill-formed terms are refused -/

theorem test_init_operand_too_wide : (Instr.b32Init 256).wellFormed = false := by decide
theorem test_trunc_operand_too_wide : (Instr.trunc 256).wellFormed = false := by decide
theorem test_widest_operands_are_wellFormed :
    (Instr.b32Init 255).wellFormed = true ∧ (Instr.trunc 255).wellFormed = true := by decide

/-! ### Decoding: each command's word, written out from R81 and R83 as RSV, ARG, OP -/

theorem test_decode_nop : decode (0b0000000000000000#16 ++ 0b00000000#8 ++ 0b00000000#8) = .ok .nop := by decide
/-- `B32_INIT 64` (after R90). -/
theorem test_decode_b32Init :
    decode (0b0000000000000000#16 ++ 0b01000000#8 ++ 0b00000001#8) = .ok (.b32Init 64) := by decide
/-- `B32_PUSH 'G'` (after R90). -/
theorem test_decode_b32Push :
    decode (0b0000000000000000#16 ++ 0b01000111#8 ++ 0b00000010#8) = .ok (.b32Push 0x47) := by decide
theorem test_decode_b32Finish :
    decode (0b0000000000000000#16 ++ 0b00000000#8 ++ 0b00000011#8) = .ok .b32Finish := by decide
theorem test_decode_ctrEnc :
    decode (0b0000000000000000#16 ++ 0b00000000#8 ++ 0b00000100#8) = .ok .ctrEnc := by decide
/-- `TRUNC 8` (after R90). -/
theorem test_decode_trunc :
    decode (0b0000000000000000#16 ++ 0b00001000#8 ++ 0b00000101#8) = .ok (.trunc 8) := by decide
theorem test_decode_srst :
    decode (0b0000000000000000#16 ++ 0b00000000#8 ++ 0b00001111#8) = .ok .srst := by decide
/-- Rows E2, E6, E8, E12: a reserved ARG that is not 0. -/
theorem test_decode_reserved_argument : decode 0x00000100 = .error .reservedArgument ∧
    decode 0x00000103 = .error .reservedArgument ∧ decode 0x00000204 = .error .reservedArgument ∧
    decode 0x0000010F = .error .reservedArgument := by decide
/-- Rows E13, E14 and the ends of the reserved ranges of R83. -/
theorem test_decode_reserved_opcode : decode 0x00000006 = .error .reservedOpcode ∧
    decode 0x0000000E = .error .reservedOpcode ∧ decode 0x00000010 = .error .reservedOpcode ∧
    decode 0x000000FF = .error .reservedOpcode := by decide
/-- R175's example, `TRUNC 0` with RSV = 1, and RSV's top bit. -/
theorem test_decode_reserved_bits : decode 0x00010005 = .error .reservedBits ∧
    decode 0x80000000 = .error .reservedBits := by decide
theorem test_decodeTableWord : decodeTableWord 32 0x4702 = some (.b32Push 0x47) ∧
    decodeTableWord 32 0x00000006 = none := by decide
theorem test_encode : encode (.b32Push 0x47) = 0x00004702 ∧ encode (.b32Init 64) = 0x00004001 ∧
    encode (.trunc 6) = 0x00000605 ∧ encode .srst = 0x0000000F := by decide

/-! ### States for the tests -/

/-- The digest of RFC 4226 section 5.4 (43_truncate.md R143's worked example). -/
def rfcDigest : Vector Byte 20 :=
  #v[0x1f, 0x86, 0x98, 0x69, 0x0e, 0x02, 0xca, 0x16, 0x61, 0x85, 0x50, 0xef, 0x7f, 0x19, 0xda, 0x8e, 0x94, 0x5b,
     0x55, 0x5a]

/-- A valid digest waits. -/
def delivered : State := (State.reset.setDigest rfcDigest).setDstat true false

/-- Delivery and failure at once (DSTAT = 3). -/
def failed : State := (State.reset.setDigest rfcDigest).setDstat true true

/-- A decode of capacity `kmax` has started, and `nsym` symbols are in ACC. -/
def decoding (kmax : BitVec 7) (nsym : BitVec 3) (acc : BitVec 40) : State :=
  ((State.reset.setKmax kmax).setGroup acc nsym).setB32st .active

/-- After row B6, "MZXW6YTB": FINISHED with five key bytes. -/
def finished : State :=
  ((State.reset.setKmax 64).setKey (writeLanes (setByte (Vector.replicate _ 0) 4 0x61) 0 0x626f6f66) 5).setB32st
    .finished

/-- A Host write waits. -/
def writing (off : Nat) (v : Word) (s : State) : State := s.setInputs [.access ⟨.host, off, 4, .write v⟩]

/-- A MAC Provider read waits. -/
def reading (off : Nat) (s : State) : State := s.setInputs [.access ⟨.macProvider, off, 4, .read⟩]

/-- The next state of an outcome, or the given one. -/
def nextOr (d : State) : Host.Outcome State Fault Refusal → State
  | .next t => t
  | .fault _ => d
  | .refused _ => d

/-- The state after a command, starting from `s`. -/
def after (i : Instr) (s : State) : State := nextOr s (exec i s)

/-- The state after one step. -/
def stepped (s : State) : State := nextOr s (step s)

/-- Whether an outcome is a next state. -/
def isNext : Host.Outcome State Fault Refusal → Bool
  | .next _ => true
  | .fault _ => false
  | .refused _ => false

/-- An outcome that is a next state is the one that `nextOr` gives. -/
theorem eq_nextOr (d : State) (o : Host.Outcome State Fault Refusal) (h : isNext o = true) : o = .next (nextOr d o) := by
  cases o with
  | next t => rfl
  | fault f => cases h
  | refused r => cases h

/-- An outcome that `eq_nextOr` proves by evaluating whether it is a next state. -/
theorem exec_answers (i : Instr) (s : State) (h : isNext (exec i s) = true) : exec i s = .next (after i s) :=
  eq_nextOr s _ h

/-- The same of a step. -/
theorem step_answers (s : State) (h : isNext (step s) = true) : step s = .next (stepped s) := eq_nextOr s _ h

/-- A token of six digits is shown. -/
def shown : State := after (.trunc 6) delivered

/-! ### Commands -/

/-- R160's worked example: ERR = 5, then NOP. -/
theorem test_nop : (after .nop (State.reset.setErr .badDigits)).err = .ok ∧
    (after .nop (State.reset.setErr .badDigits)).tvalid = false := by decide
/-- R103's worked example. -/
theorem test_b32Init : readWord 0x008 (after (.b32Init 20) State.reset) = 0x00140001 ∧
    (after (.b32Init 20) State.reset).err = .ok := by decide
/-- Row B42: B32_INIT 65 after B6 leaves the finished key. -/
theorem test_b32Init_too_large : readWord 0x004 (after (.b32Init 65) finished) = 0x00000012 ∧
    readWord 0x008 (after (.b32Init 65) finished) = 0x00400503 ∧
    readWord 0x080 (after (.b32Init 65) finished) = 0x626f6f66 := by decide
/-- The 8th symbol of trace T-b: capacity 3 cuts a full group. -/
theorem test_b32Push_full_group :
    readWord 0x008 (after (.b32Push 0x42) (decoding 3 7 0x3337B7B13)) = 0x00030302 ∧
    readWord 0x080 (after (.b32Push 0x42) (decoding 3 7 0x3337B7B13)) = 0x006f6f66 := by decide
/-- R107's worked example, its second symbol, and trace T-a's '='. -/
theorem test_b32Push_symbol_and_padding :
    (after (.b32Push 0x5A) (decoding 64 1 0xC)).acc = 0x199 ∧
    readWord 0x008 (after (.b32Push 0x3D) (decoding 64 2 0x198)) = 0x00400102 ∧
    readWord 0x080 (after (.b32Push 0x3D) (decoding 64 2 0x198)) = 0x00000066 := by decide
/-- R109's worked example. -/
theorem test_b32Finish : readWord 0x004 (after .b32Finish (decoding 64 2 0x199)) = 0x00000010 ∧
    readWord 0x008 (after .b32Finish (decoding 64 2 0x199)) = 0x00400103 ∧
    readWord 0x080 (after .b32Finish (decoding 64 2 0x199)) = 0x00000066 := by decide
/-- Rows B41 and B1: B32_FINISH in IDLE, and after an empty input. -/
theorem test_b32Finish_errors : readWord 0x004 (after .b32Finish State.reset) = 0x00000003 ∧
    readWord 0x004 (after .b32Finish (decoding 64 0 0)) = 0x00000004 ∧
    readWord 0x008 (after .b32Finish (decoding 64 0 0)) = 0x00400003 := by decide
/-- R66's example (row K7). -/
theorem test_ctrEnc :
    readWord 0x040 (after .ctrEnc (State.reset.setCounter 0x0102030405060708)) = 0x04030201 ∧
    readWord 0x044 (after .ctrEnc (State.reset.setCounter 0x0102030405060708)) = 0x08070605 := by decide
/-- Row T2, with TRAW and TVAL of R143's worked example. -/
theorem test_trunc : readWord 0x004 (after (.trunc 6) delivered) = 0x00000020 ∧
    readWord 0x014 (after (.trunc 6) delivered) = 0 ∧ readWord 0x018 (after (.trunc 6) delivered) = 0x0000060A ∧
    readWord 0x01C (after (.trunc 6) delivered) = 0x50EF7F19 ∧ readWord 0x020 (after (.trunc 6) delivered) = 872921 ∧
    readWord 0x100 (after (.trunc 6) delivered) = 0x39323738 ∧
    readWord 0x104 (after (.trunc 6) delivered) = 0x00003132 := by decide
/-- Rows T42, T43 and T49: the order of the checks. -/
theorem test_trunc_checks : readWord 0x004 (after (.trunc 255) failed) = 0x00000005 ∧
    readWord 0x004 (after (.trunc 6) failed) = 0x00000006 ∧ readWord 0x014 (after (.trunc 6) failed) = 3 ∧
    readWord 0x004 (after (.trunc 6) State.reset) = 0x00000007 := by decide
/-- R161's worked example, from a state with a key and a digest. -/
theorem test_srst : after .srst (finished.setDstat true true) = State.reset := by decide

/-! ### The bus and steps -/

/-- The host's question: the word is the first command after reset. -/
theorem test_withFetchWord : (stepped (State.reset.withFetchWord 32 0x00004001)).b32st = .active ∧
    (stepped (State.reset.withFetchWord 32 0x00004001)).kmax = 64 := by decide
/-- R86: the only effect of an illegal word is ERR. -/
theorem test_illegal_word : stepped (writing 0x000 0x00000006 delivered) =
    (delivered.setErr .illegal).setResponse (some ⟨.host, false, none⟩) := by decide
/-- R51, R52: a misaligned access and a narrow one. -/
theorem test_bus_error :
    (stepped (delivered.setInputs [.access ⟨.host, 0x0C2, 4, .read⟩])).response = some ⟨.host, true, some 0⟩ ∧
    (stepped (delivered.setInputs [.access ⟨.host, 0x0C0, 1, .write 0⟩])).digest = rfcDigest := by decide
/-- The DIGEST_SET word of section 3.1 for the RFC 4226 digest: 0x0C0 = 0x6998861F. -/
theorem test_digest_lanes :
    (stepped (reading 0x0C0 delivered)).response = some ⟨.macProvider, false, some 0x6998861F⟩ ∧
    readWord 0x0C0 (stepped (writing 0x0C0 0x6998861F State.reset)) = 0x6998861F ∧
    byteAt (stepped (writing 0x0C0 0x6998861F State.reset)).digest 0 = 0x1f := by decide
/-- R33: bytes past P_DIGEST_LEN are not state. -/
theorem test_digest_window_rest : readWord 0x0D4 (stepped (writing 0x0D4 0xFFFFFFFF delivered)) = 0 := by decide

/-- A zeroed buffer reads as 0 at every index. -/
theorem byteAt_zeros (n i : Nat) : byteAt (Vector.replicate n 0) i = 0 := by simp

/-! ### Witnesses: for each statement with hypotheses, operands and states that meet them together -/

theorem witness_DecodeOfEncode :
    (Instr.b32Init 255).wellFormed = true ∧ (Instr.b32Push 0xFF).wellFormed = true ∧
    (Instr.trunc 255).wellFormed = true ∧ Instr.srst.wellFormed = true := by decide
theorem witness_EncodeOfDecode : decode 0x0000FF01 = .ok (.b32Init 255) := by decide
theorem witness_DecodeFollowsTheOpcodeMap :
    ((0x00000006 : Word).extractLsb' 16 16 = 0 ∧ ((0x00000006 : Word).extractLsb' 0 8).toNat = 0x06) ∧
    ((0x0000000E : Word).extractLsb' 16 16 = 0 ∧ ((0x0000000E : Word).extractLsb' 0 8).toNat = 0x0E) ∧
    ((0x00000010 : Word).extractLsb' 16 16 = 0 ∧ ((0x00000010 : Word).extractLsb' 0 8).toNat = 0x10) ∧
    ((0x0000FFFF : Word).extractLsb' 16 16 = 0 ∧ ((0x0000FFFF : Word).extractLsb' 0 8).toNat = 0xFF) := by decide
theorem witness_EveryWordIsOneCommandOrIllegal : decode 0x0000000F = .ok .srst := by decide
theorem witness_IllegalWordsOnlySetErr :
    (0x00010005 : Word).extractLsb' 16 16 ≠ 0 ∧ ((0x00000006 : Word).extractLsb' 0 8).toNat = 0x06 ∧
    ((0x0000000E : Word).extractLsb' 0 8).toNat = 0x0E ∧ ((0x00000010 : Word).extractLsb' 0 8).toNat = 0x10 := by
  decide
theorem witness_ReservedArgumentIsIllegal :
    (0x0000010F : Word).extractLsb' 16 16 = 0 ∧ (0x0000010F : Word).extractLsb' 0 8 = 0x0F ∧
    (0x0000010F : Word).extractLsb' 8 8 ≠ 0 ∧
    (0x0000FF00 : Word).extractLsb' 16 16 = 0 ∧ (0x0000FF00 : Word).extractLsb' 0 8 = 0x00 ∧
    (0x0000FF00 : Word).extractLsb' 8 8 ≠ 0 := by decide
theorem witness_CommandWriteRunsItsCommand :
    (writing 0x000 0x00000605 delivered).inputs = .access (commandWrite .host 0x00000605) :: [] ∧
    decode 0x00000605 = .ok (.trunc 6) := by decide
theorem witness_RunsInsideTheWindowNeverStop : InWindow (reading 0x1FC delivered) := by
  intro a ha
  cases List.mem_singleton.mp ha
  decide
theorem witness_StepStopsOnlyOutsideTheWindow :
    step (reading 0x200 delivered) = .fault .outsideWindow ∧
    (reading 0x200 delivered).inputs = .access ⟨.macProvider, 0x200, 4, .read⟩ :: [] := ⟨rfl, by decide⟩
theorem witness_WaitingChangesNothing : delivered.inputs = [] := by decide
theorem witness_HardwareResetSetsTheResetState :
    (delivered.setInputs [.hardwareReset]).inputs = .hardwareReset :: [] := by decide
theorem witness_ResetValues :
    (finished.setInputs [.hardwareReset, .hardwareReset]).inputs = .hardwareReset :: [.hardwareReset] := by decide
theorem witness_SrstIsAReset : exec .srst finished = .next (after .srst finished) ∧
    (delivered.setInputs [.hardwareReset]).inputs = .hardwareReset :: [] ∧
    step (delivered.setInputs [.hardwareReset]) = .next (stepped (delivered.setInputs [.hardwareReset])) := ⟨exec_answers _ _ (by decide), by decide, step_answers _ (by decide)⟩
theorem witness_BusAccessesHaveOnlyTheirEffect :
    (reading 0x1FC delivered).inputs = .access ⟨.macProvider, 0x1FC, 4, .read⟩ :: [] ∧
    (writing 0x000 0x605 delivered).inputs = .access ⟨.host, 0x000, 4, .write 0x605⟩ :: [] ∧
    (writing 0x00C 7 delivered).inputs = .access ⟨.host, 0x00C, 4, .write 7⟩ :: [] ∧
    (writing 0x010 7 delivered).inputs = .access ⟨.host, 0x010, 4, .write 7⟩ :: [] ∧
    (writing 0x014 2 delivered).inputs = .access ⟨.host, 0x014, 4, .write 2⟩ :: [] ∧
    (writing 0x0C0 7 delivered).inputs = .access ⟨.host, 0x0C0, 4, .write 7⟩ :: [] ∧
    (writing 0x0FC 7 delivered).inputs = .access ⟨.host, 0x0FC, 4, .write 7⟩ :: [] ∧
    (writing 0x0BC 7 delivered).inputs = .access ⟨.host, 0x0BC, 4, .write 7⟩ :: [] ∧
    (writing 0x1FC 7 delivered).inputs = .access ⟨.host, 0x1FC, 4, .write 7⟩ :: [] := by decide
theorem witness_BusErrorsChangeNothing :
    (delivered.setInputs [.access ⟨.host, 0x1FF, 4, .read⟩]).inputs = .access ⟨.host, 0x1FF, 4, .read⟩ :: [] ∧
    (0x1FF : Nat) < 0x200 ∧ 0x1FF % 4 ≠ 0 ∧
    (delivered.setInputs [.access ⟨.host, 0x000, 2, .write 5⟩]).inputs = .access ⟨.host, 0x000, 2, .write 5⟩ :: [] ∧
    (2 : Nat) ≠ 4 := by decide
theorem witness_ReadsReturnTheCurrentWord :
    (reading 0x1FC delivered).inputs = .access ⟨.macProvider, 0x1FC, 4, .read⟩ :: [] ∧
    (0x1FC : Nat) < 0x200 ∧ 0x1FC % 4 = 0 := by decide
theorem witness_ReservedAndReadOnlyPlacesAreHarmless :
    (∀ off ∈ [0x024, 0x03C, 0x048, 0x07C, 0x10C, 0x1FC],
      (reading off delivered).inputs = .access ⟨.macProvider, off, 4, .read⟩ :: [] ∧ off % 4 = 0 ∧
      ((0x024 ≤ off ∧ off < 0x040) ∨ (0x048 ≤ off ∧ off < 0x080) ∨ (0x10C ≤ off ∧ off < 0x200))) ∧
    (∀ off ∈ [0x004, 0x008, 0x018, 0x01C, 0x020, 0x040, 0x044, 0x080, 0x0BC, 0x100, 0x108],
      (writing off 9 delivered).inputs = .access ⟨.host, off, 4, .write 9⟩ :: [] ∧ off % 4 = 0 ∧
      (off = 0x004 ∨ off = 0x008 ∨ off = 0x018 ∨ off = 0x01C ∨ off = 0x020 ∨ (0x040 ≤ off ∧ off < 0x048) ∨
        (0x080 ≤ off ∧ off < 0x0C0) ∨ (0x100 ≤ off ∧ off < 0x10C))) := by decide
theorem witness_BufferLanesAreLittleEndian :
    (∀ off ∈ [0x040, 0x044], off % 4 = 0 ∧ 0x040 ≤ off ∧ off < 0x048) ∧
    (∀ off ∈ [0x080, 0x0BC], off % 4 = 0 ∧ 0x080 ≤ off ∧ off < 0x0C0) ∧
    (∀ off ∈ [0x0C0, 0x0D0, 0x0D4, 0x0FC], off % 4 = 0 ∧ 0x0C0 ≤ off ∧ off < 0x100) ∧
    (∀ off ∈ [0x100, 0x108], off % 4 = 0 ∧ 0x100 ≤ off ∧ off < 0x10C) ∧ (3 : Nat) < 4 ∧ (19 : Nat) < 20 := by decide
theorem witness_CounterRegister : Instr.trunc 6 ≠ .ctrEnc ∧ Instr.trunc 6 ≠ .srst ∧
    exec (.trunc 6) delivered = .next (after (.trunc 6) delivered) :=
  ⟨by decide, by decide, exec_answers _ _ (by decide)⟩
theorem witness_DigestStatusRegister :
    step (writing 0x014 2 delivered) = .next (stepped (writing 0x014 2 delivered)) ∧
    (stepped (writing 0x014 2 delivered)).dv ≠ (writing 0x014 2 delivered).dv ∧
    (stepped (writing 0x014 2 delivered)).merr ≠ (writing 0x014 2 delivered).merr ∧
    exec (.trunc 6) delivered = .next shown ∧ shown.err = .ok :=
  ⟨step_answers _ (by decide), by decide, by decide, exec_answers _ _ (by decide), by decide⟩
theorem witness_EveryElementHasItsWriters :
    step (writing 0x000 0x605 delivered) = .next (stepped (writing 0x000 0x605 delivered)) ∧
    (stepped (writing 0x000 0x605 delivered)).token ≠ (writing 0x000 0x605 delivered).token ∧
    (stepped (writing 0x000 0x605 delivered)).tvalid ≠ (writing 0x000 0x605 delivered).tvalid ∧
    (stepped (writing 0x000 0x4001 delivered)).kmax ≠ (writing 0x000 0x4001 delivered).kmax ∧
    (stepped (writing 0x000 0x4001 delivered)).decoderPart ≠ (writing 0x000 0x4001 delivered).decoderPart ∧
    (stepped (writing 0x000 6 delivered)).err ≠ (writing 0x000 6 delivered).err ∧
    (stepped (writing 0x010 6 delivered)).counter ≠ (writing 0x010 6 delivered).counter ∧
    (stepped (writing 0x000 4 (delivered.setCounter 6))).cb ≠ (writing 0x000 4 (delivered.setCounter 6)).cb ∧
    (stepped (writing 0x000 0x605 delivered)).dv ≠ (writing 0x000 0x605 delivered).dv ∧
    (stepped (writing 0x014 2 delivered)).dv ≠ (writing 0x014 2 delivered).dv ∧
    (stepped (writing 0x014 2 delivered)).merr ≠ (writing 0x014 2 delivered).merr ∧
    (stepped (writing 0x0D0 6 delivered)).digest ≠ (writing 0x0D0 6 delivered).digest := 
  ⟨step_answers _ (by decide), by decide⟩
/-- Two equal accesses wait. -/
def twice (a : Access) (s : State) : State := s.setInputs [.access a, .access a]
theorem witness_ReadsAndRegisterWritesAreIdempotent :
    step (twice ⟨.host, 0x004, 4, .read⟩ finished) = .next (stepped (twice ⟨.host, 0x004, 4, .read⟩ finished)) ∧
    step (stepped (twice ⟨.host, 0x004, 4, .read⟩ finished)) =
      .next (stepped (stepped (twice ⟨.host, 0x004, 4, .read⟩ finished))) ∧
    step (twice ⟨.host, 0x0C0, 4, .write 5⟩ finished) =
      .next (stepped (twice ⟨.host, 0x0C0, 4, .write 5⟩ finished)) ∧
    step (stepped (twice ⟨.host, 0x0C0, 4, .write 5⟩ finished)) =
      .next (stepped (stepped (twice ⟨.host, 0x0C0, 4, .write 5⟩ finished))) := 
  ⟨step_answers _ (by decide), step_answers _ (by decide), step_answers _ (by decide),
    step_answers _ (by decide)⟩
theorem witness_MastersAreNotDistinguished :
    (reading 0x080 finished).inputs = .access ⟨.macProvider, 0x080, 4, .read⟩ :: [] ∧
    step (reading 0x080 finished) = .next (stepped (reading 0x080 finished)) := ⟨by decide, step_answers _ (by decide)⟩
theorem witness_StepKeepsDecoderInv : DecoderInv (writing 0x000 0x605 delivered) ∧
    step (writing 0x000 0x605 delivered) = .next (stepped (writing 0x000 0x605 delivered)) := by
  refine ⟨⟨by decide, by decide, by decide, by decide, by decide, by decide, fun i _ => ?_⟩, step_answers _ (by decide)⟩
  exact byteAt_zeros _ i
theorem witness_StepKeepsTokenInv : TokenInv (writing 0x000 0x605 shown) ∧
    1 ≤ (writing 0x000 0x605 shown).tlen.toNat ∧
    step (writing 0x000 0x605 shown) = .next (stepped (writing 0x000 0x605 shown)) := by
  refine ⟨⟨by decide, fun i hi => ?_, by decide, by decide⟩, by decide, step_answers _ (by decide)⟩
  have h : (writing 0x000 0x605 shown).tlen.toNat = 6 := by decide
  rw [h] at hi
  by_cases hlt : i < 10
  · exact (show ∀ i, i < 10 → 6 ≤ i → byteAt (writing 0x000 0x605 shown).token i = 0 by decide) i hlt hi
  · exact byteAt_of_le _ (Nat.le_of_not_lt hlt)
theorem witness_StepKeepsTokenShown : TokenShown (writing 0x000 0x605 shown) ∧
    (writing 0x000 0x605 shown).tvalid = true ∧
    step (writing 0x000 0x605 shown) = .next (stepped (writing 0x000 0x605 shown)) := by
  refine ⟨⟨by decide, by decide, ?_⟩, by decide, step_answers _ (by decide)⟩
  have h : (writing 0x000 0x605 shown).tlen.toNat = 6 := by decide
  rw [h]
  decide
theorem witness_SymbolIndexIsAlphabetPosition : (0x61 : Byte).toNat = 0x61 ∧ (0x7A : Byte).toNat = 0x7A := by decide
theorem witness_InitStartsADecode : (0 : Nat) ≤ 64 ∧ (64 : Nat) ≤ 64 ∧ 64 < (65 : Nat) := by decide
theorem witness_PushOutsideActiveIsIgnored : State.reset.b32st = .idle ∧ finished.b32st = .finished := by decide
theorem witness_PushCollectsASymbol :
    (decoding 64 6 0x199BDBD8).b32st = .active ∧ sym 0x54 = some 19 ∧ (decoding 64 6 0x199BDBD8).nsym.toNat < 7 := by
  decide
/-- "MZXW6YTB" (rows B6 and B22), with space for the whole group and for three of its bytes. -/
theorem witness_EighthSymbolEmitsTheGroup :
    ∀ kmax ∈ [3#7, 5#7, 64#7], CapacityOk (decoding kmax 7 0x3337B7B13) ∧
      (decoding kmax 7 0x3337B7B13).b32st = .active ∧ (decoding kmax 7 0x3337B7B13).nsym = 7 ∧ sym 0x42 = some 1 ∧
      (decoding kmax 7 0x3337B7B13).acc = 0#5 ++ 12#5 ++ 25#5 ++ 23#5 ++ 22#5 ++ 30#5 ++ 24#5 ++ 19#5 := by
  unfold CapacityOk
  decide
theorem witness_NonAlphabetCharacterTerminates : CapacityOk (decoding 64 2 0x198) ∧
    (decoding 64 2 0x198).b32st = .active ∧ sym 0x3D = none := by unfold CapacityOk; decide
theorem witness_FinishPublishesTheKey : State.reset.b32st = .idle ∧ CapacityOk (decoding 64 2 0x199) ∧
    (decoding 64 2 0x199).b32st = .active ∧ finished.b32st = .finished := by unfold CapacityOk; decide
theorem witness_ResetsCannotBeToldApart : exec .srst finished = .next (after .srst finished) ∧
    (delivered.setInputs [.hardwareReset]).inputs = .hardwareReset :: [] ∧
    step (delivered.setInputs [.hardwareReset]) = .next (stepped (delivered.setInputs [.hardwareReset])) ∧
    (0x1FC : Nat) % 4 = 0 :=
  ⟨exec_answers _ _ (by decide), by decide, step_answers _ (by decide), by decide⟩
/-- Rows B1, B13 and B15: an empty text, "=" first, and one symbol. -/
theorem witness_EmptyDecodesAreReported : (decoding 64 1 12).b32st ≠ .idle ∧
    exec .b32Finish (decoding 64 1 12) = .next (after .b32Finish (decoding 64 1 12)) ∧
    (after .b32Finish (decoding 64 1 12)).klen = 0 ∧ (validPrefix []).length ≤ 1 ∧ (64 : Nat) ≤ 64 ∧
    (validPrefix [0x3D, 0x4D]).length ≤ 1 ∧ (validPrefix [0x4D]).length ≤ 1 :=
  ⟨by decide, exec_answers _ _ (by decide), by decide⟩
/-- "MZ", and an empty group. -/
theorem witness_PartialGroupYieldsWholeBytes :
    CapacityOk (decoding 1 2 0x199) ∧ (decoding 1 2 0x199).b32st = .active ∧
    sym 0x3D = none ∧ (decoding 1 2 0x199).nsym.toNat = [12#5, 25#5].length ∧
    (decoding 1 2 0x199).acc.toNat = symbolsValue [12#5, 25#5] ∧
    (decoding 1 2 0x199).klen.toNat + 1 ≤ (decoding 1 2 0x199).kmax.toNat ∧
    CapacityOk (decoding 1 0 0) ∧ (decoding 1 0 0).nsym.toNat = ([] : List (BitVec 5)).length := by
  unfold CapacityOk
  decide
/-- R118's example: "MZ" and "MY". -/
theorem witness_DiscardedBitsAreNotChecked : (decoding 64 2 0x199).b32st = .active ∧
    (0x198#40).toNat / 2 ^ (5 * (decoding 64 2 0x199).nsym.toNat % 8) =
      (decoding 64 2 0x199).acc.toNat / 2 ^ (5 * (decoding 64 2 0x199).nsym.toNat % 8) ∧ sym 0x3D = none := by decide
theorem witness_WholeDecodeIsTheDecodeFunction : (0 : Nat) ≤ 64 ∧ (64 : Nat) ≤ 64 := by decide
theorem witness_DecoderStateTransitions : DecoderInv (writing 0x000 0x00004001 State.reset) ∧
    step (writing 0x000 0x00004001 State.reset) = .next (stepped (writing 0x000 0x00004001 State.reset)) ∧
    (stepped (writing 0x000 0x00004001 State.reset)).b32st = .active := by
  refine ⟨⟨by decide, by decide, by decide, by decide, by decide, by decide, fun i _ => ?_⟩, step_answers _ (by decide), by decide⟩
  exact byteAt_zeros _ i
theorem witness_KeyIsImmutableOnceFinished : (writing 0x000 0x4102 finished).b32st = .finished ∧
    step (writing 0x000 0x4102 finished) = .next (stepped (writing 0x000 0x4102 finished)) ∧
    ¬ NextResets (writing 0x000 0x4102 finished) ∧ ∀ m, ¬ NextRuns (writing 0x000 0x4102 finished) (.b32Init m) := by
  refine ⟨by decide, step_answers _ (by decide), ?_, ?_⟩
  · rintro (⟨_, _, _, hi, hd⟩ | ⟨_, hi⟩)
    · cases hi
      exact absurd hd (by decide)
    · cases hi
  · rintro m ⟨_, _, _, hi, hd⟩
    cases hi
    have hp : decode 0x4102 = .ok (.b32Push 0x41) := by decide
    cases hp.symm.trans hd
theorem witness_DecoderIsIsolated : exec (.b32Push 0x4D) (decoding 64 0 0) =
      .next (after (.b32Push 0x4D) (decoding 64 0 0)) ∧
    ((decoding 64 0 0).setCounter 5).decoderPart = (decoding 64 0 0).decoderPart ∧
    exec (.trunc 6) delivered = .next (after (.trunc 6) delivered) := 
  ⟨exec_answers _ _ (by decide), by decide, exec_answers _ _ (by decide)⟩
theorem witness_CounterRoundTrip : exec .ctrEnc (State.reset.setCounter 37037036) =
    .next (after .ctrEnc (State.reset.setCounter 37037036)) := 
  exec_answers _ _ (by decide)
theorem witness_NopOnlyClearsErr : (0x0000FF00 : Word).extractLsb' 16 16 = 0 ∧
    (0x0000FF00 : Word).extractLsb' 0 8 = 0x00 ∧ (0x0000FF00 : Word).extractLsb' 8 8 ≠ 0 := by decide
theorem witness_TruncRendersTheToken : (1 : Nat) ≤ 1 ∧ (10 : Nat) ≤ 10 ∧ delivered.merr = false ∧
    delivered.dv = true := by decide
theorem witness_TruncChecksInOrder : (0 : Nat) < 1 ∧ 10 < (11 : Nat) ∧ failed.merr = true ∧
    State.reset.merr = false ∧ State.reset.dv = false := by decide
theorem witness_TokenReadsBackAsItsValue : exec (.trunc 6) delivered = .next shown ∧ shown.err = .ok := 
  ⟨exec_answers _ _ (by decide), by decide⟩
theorem witness_TruncReadsOnlyTheDigest :
    (delivered.setCounter 5).digestPart = delivered.digestPart ∧ exec (.trunc 6) delivered = .next shown ∧
    shown.err = .ok := 
  ⟨by decide, exec_answers _ _ (by decide), by decide⟩
theorem witness_TruncConsumesTheDigest : exec (.trunc 6) delivered = .next shown ∧ shown.err = .ok ∧
    (1 : Nat) ≤ 10 ∧ (10 : Nat) ≤ 10 := 
  ⟨exec_answers _ _ (by decide), by decide⟩
theorem witness_MacFailureBlocksTruncation : failed.merr = true ∧ (1 : Nat) ≤ 6 ∧ (6 : Nat) ≤ 10 ∧
    step (writing 0x014 0 failed) = .next (stepped (writing 0x014 0 failed)) ∧
    (stepped (writing 0x014 0 failed)).merr = false := 
  ⟨by decide, by decide, by decide, step_answers _ (by decide), by decide⟩
theorem witness_ResultCodeOfEveryCommandWord : IllegalWord 0x00010005 ∧ decode 0x00000004 = .ok .ctrEnc ∧
    decode 0x00004101 = .ok (.b32Init 65) ∧ decode 0x00004002 = .ok (.b32Push 0x40) ∧
    decode 0x00000003 = .ok .b32Finish ∧ decode 0x00000B05 = .ok (.trunc 11) :=
  ⟨.inl (by decide), by decide, by decide, by decide, by decide, by decide⟩
theorem witness_FailingCommandsDoNothingElse :
    runWord 0x00000605 failed = .next (nextOr failed (runWord 0x00000605 failed)) ∧
    (nextOr failed (runWord 0x00000605 failed)).err ≠ .ok ∧
    (nextOr failed (runWord 0x00000605 failed)).err ≠ .emptyKey :=
  ⟨eq_nextOr _ _ (by decide), by decide⟩

end Sys2Proof.Machine.Tests
end

section
/-! SUPPORT. The registers CNT_LO, CNT_HI and DSTAT of 10_state.md R25 and R26: what a bus access to them reads and
sets, and which commands read or write the elements behind them. -/

namespace Sys2Proof.Machine

/-! ### Bus accesses to CNT_LO, CNT_HI and DSTAT -/

@[simp] theorem readWord_cntLo (s : State) : readWord 0x00C s = cntLoWord s := rfl

@[simp] theorem readWord_cntHi (s : State) : readWord 0x010 s = cntHiWord s := rfl

@[simp] theorem readWord_dstat (s : State) : readWord 0x014 s = dstatWord s := rfl

@[simp] theorem writeWord_cntLo (v : Word) (s : State) :
    writeWord 0x00C v s = s.setCounter (cntHiWord s ++ v) := rfl

@[simp] theorem writeWord_cntHi (v : Word) (s : State) :
    writeWord 0x010 v s = s.setCounter (v ++ cntLoWord s) := rfl

@[simp] theorem writeWord_dstat (v : Word) (s : State) :
    writeWord 0x014 v s = s.setDstat (v.getLsbD 0) (v.getLsbD 1) := rfl

theorem cntHiWord_append_cntLoWord (s : State) : cntHiWord s ++ cntLoWord s = s.counter := by
  ext k hk
  simp only [cntHiWord, cntLoWord]
  grind

@[simp] theorem cntHiWord_setCounter_append (s : State) (hi lo : Word) : cntHiWord (s.setCounter (hi ++ lo)) = hi := by
  ext k hk
  simp only [cntHiWord, State.setCounter_counter]
  grind

@[simp] theorem cntLoWord_setCounter_append (s : State) (hi lo : Word) : cntLoWord (s.setCounter (hi ++ lo)) = lo := by
  ext k hk
  simp only [cntLoWord, State.setCounter_counter]
  grind

theorem dstatWord_toNat (s : State) : (dstatWord s).toNat = s.dv.toNat + 2 * s.merr.toNat := by
  unfold dstatWord
  cases s.merr <;> cases s.dv <;> rfl

/-- No write but one to DSTAT changes DV or MERR (10_state.md R26, 20_memory.md R62). -/
theorem writeWord_keeps_dstat {off : Nat} (h : off ≠ 0x014) (v : Word) (s : State) :
    (writeWord off v s).dv = s.dv ∧ (writeWord off v s).merr = s.merr := by
  unfold writeWord
  rw [if_neg h]
  split_ifs <;> exact ⟨rfl, rfl⟩

/-! ### Commands and COUNTER, DV, MERR -/

/-- No command but SRST writes COUNTER or MERR, and only a TRUNC that succeeds changes DV, which it clears
(10_state.md R25, R26; 43_truncate.md R151). -/
theorem exec_keeps_counter_dstat {i : Instr} {s t : State} (hi : i ≠ .srst) (h : exec i s = .next t) :
    t.counter = s.counter ∧ t.merr = s.merr ∧
      (t.dv = s.dv ∨ (t.dv = false ∧ t.err = .ok ∧ ∃ d, i = .trunc d)) := by
  cases i with
  | nop => cases h; exact ⟨rfl, rfl, .inl rfl⟩
  | b32Init m =>
    rcases execB32Init_cases m s with ⟨-, e⟩ | ⟨-, e⟩ <;> (cases e.symm.trans h; exact ⟨rfl, rfl, .inl rfl⟩)
  | b32Push c =>
    rcases execB32Push_cases c s with ⟨-, e⟩ | ⟨-, e⟩ | ⟨-, -, e⟩ | ⟨v, -, -, e⟩ <;> cases e.symm.trans h
    · exact ⟨rfl, rfl, .inl rfl⟩
    · exact ⟨rfl, rfl, .inl rfl⟩
    · rw [flush_frame s]; exact ⟨rfl, rfl, .inl rfl⟩
    · obtain ⟨_, _, _, _, _, hf⟩ := pushSymbol_frame v s
      rw [hf]; exact ⟨rfl, rfl, .inl rfl⟩
  | b32Finish =>
    rcases execB32Finish_cases s with ⟨-, e⟩ | ⟨-, e⟩ <;> cases e.symm.trans h
    · exact ⟨rfl, rfl, .inl rfl⟩
    · obtain ⟨_, _, _, _, hf⟩ := endInput_frame s
      rw [hf]; exact ⟨rfl, rfl, .inl rfl⟩
  | ctrEnc => cases h; exact ⟨rfl, rfl, .inl rfl⟩
  | trunc d =>
    rcases execTrunc_cases d s with ⟨c, -, e⟩ | ⟨-, -, -, -, e⟩ <;> cases e.symm.trans h
    · exact ⟨rfl, rfl, .inl rfl⟩
    · exact ⟨rfl, rfl, .inr ⟨rfl, rfl, d, rfl⟩⟩
  | srst => exact absurd rfl hi

/-- A TRUNC that succeeds clears DV (43_truncate.md R151). -/
theorem execTrunc_ok_clears_dv {d : Nat} {s t : State} (h : execTrunc d s = .next t) (hok : t.err = .ok) :
    t.dv = false := by
  rcases execTrunc_cases d s with ⟨c, hc, e⟩ | ⟨-, -, -, -, e⟩ <;> cases e.symm.trans h
  · exact absurd hok hc
  · rfl

/-- A command word that is no SRST keeps MERR, and changes DV only where it is a TRUNC that succeeds. -/
theorem runWord_keeps_dstat {w : Word} {s t : State} (hw : decode w ≠ .ok .srst) (h : runWord w s = .next t) :
    t.merr = s.merr ∧ (t.dv = s.dv ∨ (t.dv = false ∧ t.err = .ok ∧ ∃ d, decode w = .ok (.trunc d))) := by
  rcases runWord_cases w s with ⟨i, hi, e⟩ | ⟨_, -, e⟩
  · have hne : i ≠ .srst := fun hs => hw (hs ▸ hi)
    obtain ⟨-, hmerr, hdv | ⟨hdv, herr, d, rfl⟩⟩ := exec_keeps_counter_dstat hne (e.symm.trans h)
    · exact ⟨hmerr, .inl hdv⟩
    · exact ⟨hmerr, .inr ⟨hdv, herr, d, hi⟩⟩
  · cases e.symm.trans h
    exact ⟨rfl, .inl rfl⟩

/-- A step that neither writes DSTAT nor resets keeps MERR, and changes DV only by a TRUNC that succeeds
(10_state.md R26). -/
theorem step_dstat_cases {s t : State} (h : step s = .next t) :
    NextWrites s 0x014 ∨ NextResets s ∨
      (t.merr = s.merr ∧ (t.dv = s.dv ∨ (t.dv = false ∧ t.err = .ok ∧ ∃ d, NextRuns s (.trunc d)))) := by
  rcases step_cases h with ⟨-, rfl⟩ | ⟨rest, hi, -⟩ | ⟨_, _, -, -, -, rfl⟩ | ⟨m, off, v, rest, hi, -, -, -, rfl⟩ |
    ⟨m, w, rest, u, hi, hu, rfl⟩
  · exact .inr (.inr ⟨rfl, .inl rfl⟩)
  · exact .inr (.inl (.inr ⟨rest, hi⟩))
  · exact .inr (.inr ⟨rfl, .inl rfl⟩)
  · by_cases hoff : off = 0x014
    · subst hoff
      exact .inl ⟨m, v, rest, hi⟩
    · obtain ⟨hdv, hmerr⟩ := writeWord_keeps_dstat hoff v (s.setInputs rest)
      exact .inr (.inr ⟨hmerr, .inl hdv⟩)
  · by_cases hw : decode w = .ok .srst
    · exact .inr (.inl (.inl ⟨m, w, rest, hi, hw⟩))
    · obtain ⟨hmerr, hdv | ⟨hdv, herr, d, hd⟩⟩ := runWord_keeps_dstat hw hu
      · exact .inr (.inr ⟨hmerr, .inl hdv⟩)
      · exact .inr (.inr ⟨hmerr, .inr ⟨hdv, herr, d, m, w, rest, hi, hd⟩⟩)

/-! ### Commands that do not read COUNTER -/

theorem emitByte_setCounter (k j : Nat) (s : State) (c : BitVec 64) :
    emitByte k (s.setCounter c) j = (emitByte k s j).setCounter c := by
  rw [emitByte, emitByte, State.setCounter_klen, State.setCounter_kmax]
  split <;> rfl

theorem emit_setCounter (k : Nat) (s : State) (c : BitVec 64) :
    emit k (s.setCounter c) = (emit k s).setCounter c := by
  have upTo : ∀ n, emitUpTo k n (s.setCounter c) = (emitUpTo k n s).setCounter c := by
    intro n
    induction n with
    | zero => rfl
    | succ n ih => rw [emitUpTo_succ, emitUpTo_succ, ih, emitByte_setCounter]
  exact upTo _

theorem flush_setCounter (s : State) (c : BitVec 64) : flush (s.setCounter c) = (flush s).setCounter c := by
  rw [flush_eq_emit, flush_eq_emit, State.setCounter_nsym, emit_setCounter]
  rfl

theorem groupEmitted_setCounter (v : BitVec 5) (s : State) (c : BitVec 64) :
    groupEmitted v (s.setCounter c) = (groupEmitted v s).setCounter c := by
  have h := emit_setCounter 8 (s.setGroup (joined v s) 0) c
  exact congrArg (fun x => State.setGroup x 0 0) h

theorem pushSymbol_setCounter (v : BitVec 5) (s : State) (c : BitVec 64) :
    pushSymbol v (s.setCounter c) = (pushSymbol v s).setCounter c := by
  by_cases h : s.nsym.toNat = 7
  · rw [pushSymbol_full v h, pushSymbol_full v (s := s.setCounter c) h, groupEmitted_setCounter,
      State.setCounter_klen, State.setCounter_kmax]
    split <;> rfl
  · have hlt : s.nsym.toNat < 7 := by omega
    rw [pushSymbol_partial v hlt, pushSymbol_partial v (s := s.setCounter c) hlt]
    rfl

theorem endInput_setCounter (s : State) (c : BitVec 64) :
    endInput (s.setCounter c) = (endInput s).setCounter c := by
  rw [endInput, endInput, State.setCounter_b32st, flush_setCounter]
  split <;> rfl

/-- The outcome with COUNTER set to `c` in its next state. -/
def withCounter (c : BitVec 64) : Host.Outcome State Fault Refusal → Host.Outcome State Fault Refusal
  | .next t => .next (t.setCounter c)
  | .fault f => .fault f
  | .refused r => .refused r

theorem execB32Init_setCounter (m : Nat) (s : State) (c : BitVec 64) :
    execB32Init m (s.setCounter c) = withCounter c (execB32Init m s) := by
  unfold execB32Init
  split <;> rfl

theorem execB32Push_setCounter (ch : Byte) (s : State) (c : BitVec 64) :
    execB32Push ch (s.setCounter c) = withCounter c (execB32Push ch s) := by
  unfold execB32Push
  simp only [State.setCounter_b32st, flush_setCounter, pushSymbol_setCounter]
  cases s.b32st with
  | idle => rfl
  | stopped => rfl
  | finished => rfl
  | active => cases sym ch <;> rfl

theorem execB32Finish_setCounter (s : State) (c : BitVec 64) :
    execB32Finish (s.setCounter c) = withCounter c (execB32Finish s) := by
  unfold execB32Finish
  simp only [State.setCounter_b32st, endInput_setCounter]
  split <;> rfl

theorem execTrunc_setCounter (d : Nat) (s : State) (c : BitVec 64) :
    execTrunc d (s.setCounter c) = withCounter c (execTrunc d s) := by
  unfold execTrunc
  split
  · rfl
  · rw [State.setCounter_merr, State.setCounter_dv]
    cases s.merr <;> cases s.dv <;> rfl

/-- A command other than CTR_ENC and SRST carries COUNTER through and does the same whatever it is
(10_state.md R25). -/
theorem exec_setCounter {i : Instr} (hc : i ≠ .ctrEnc) (hr : i ≠ .srst) (s : State) (c : BitVec 64) :
    exec i (s.setCounter c) = withCounter c (exec i s) := by
  cases i with
  | nop => rfl
  | b32Init m => exact execB32Init_setCounter m s c
  | b32Push ch => exact execB32Push_setCounter ch s c
  | b32Finish => exact execB32Finish_setCounter s c
  | ctrEnc => exact absurd rfl hc
  | trunc d => exact execTrunc_setCounter d s c
  | srst => exact absurd rfl hr

end Sys2Proof.Machine
end

section
/-! SUPPORT. The obligations about the registers CNT_LO, CNT_HI and DSTAT (10_state.md R25, R26). -/

namespace Sys2Proof.Machine

/-- A command other than CTR_ENC gives the same result whatever COUNTER is, but for COUNTER itself
(10_state.md R25): SRST resets it, every other carries it through. -/
theorem exec_independent_of_counter {i : Instr} {s t : State} (hi : i ≠ .ctrEnc) (h : exec i s = .next t)
    (c : BitVec 64) : ∃ t', exec i (s.setCounter c) = .next t' ∧ t'.setCounter t.counter = t := by
  by_cases hr : i = .srst
  · subst hr
    cases h
    exact ⟨_, rfl, rfl⟩
  · exact ⟨t.setCounter c, by rw [exec_setCounter hi hr, h]; rfl, rfl⟩

/-- Settles O25: bit by bit for the halves, and because every command but CTR_ENC and SRST carries COUNTER through. -/
theorem counterRegister : Obligations.CounterRegister := by
  unfold Obligations.CounterRegister
  refine ⟨cntHiWord_append_cntLoWord, fun s v => ?_, fun i s t c hi h => exec_independent_of_counter hi h c,
    fun i s t hi h => (exec_keeps_counter_dstat hi h).1⟩
  simp

/-- Settles O26: the writers of DV and MERR by the cases of a step. -/
theorem digestStatusRegister : Obligations.DigestStatusRegister := by
  unfold Obligations.DigestStatusRegister
  refine ⟨dstatWord_toNat, fun _ _ => rfl, fun s t h hne => ?_, fun s t d h hok => execTrunc_ok_clears_dv h hok,
    fun s t h hne => ?_⟩
  · rcases step_dstat_cases h with hw | hr | ⟨-, hdv | htrunc⟩
    · exact .inl hw
    · exact .inr (.inl hr)
    · exact absurd hdv hne
    · exact .inr (.inr htrunc)
  · rcases step_dstat_cases h with hw | hr | ⟨hmerr, -⟩
    · exact .inl hw
    · exact .inr hr
    · exact absurd hmerr hne

end Sys2Proof.Machine
end

section
/-! SUPPORT. One access of the bus at a time (20_memory.md R50 to R64): what the step answers to a bus error, a read and
a write, and which element the register map puts behind each offset. -/

namespace Sys2Proof.Machine

/-! ### The port: a step that serves an access -/

/-- An access is no bus error exactly where it is aligned and 32 bits wide (20_memory.md R51, R52). -/
theorem isBusError_iff (a : Access) : a.isBusError = true ↔ a.off % 4 ≠ 0 ∨ a.size ≠ 4 := by
  simp [Access.isBusError, or_comm]

theorem isBusError_of_aligned (m : Master) {off : Nat} (k : AccessKind) (h : off % 4 = 0) :
    (Access.mk m off 4 k).isBusError = false := by
  simp [Access.isBusError, h]

section
variable {s : State} {rest : List Input}

/-- An access that names a window offset is taken from the inputs and answered (20_memory.md R50, R57). -/
theorem step_access {a : Access} (hi : s.inputs = .access a :: rest) (hw : a.off < Config.windowSize) :
    step s = withResponse (a.response (s.setInputs rest))
      (if a.isBusError then .next (s.setInputs rest) else performAccess a (s.setInputs rest)) := by
  rw [step, takeInput, hi]
  exact if_neg (Nat.not_le.mpr hw)

/-- A bus error changes no element (20_memory.md R51, R52, R64). -/
theorem step_busError {a : Access} (hi : s.inputs = .access a :: rest) (hw : a.off < Config.windowSize)
    (hb : a.isBusError = true) :
    step s = .next ((s.setInputs rest).setResponse
      (some ⟨a.master, true, if a.kind = .read then some 0 else none⟩)) := by
  have hr : a.response (s.setInputs rest) = ⟨a.master, true, if a.kind = .read then some 0 else none⟩ := by
    rw [Access.response, hb]
    cases a.kind <;> rfl
  rw [step_access hi hw, if_pos hb, hr]
  rfl

/-- A read, of whatever size and alignment, changes no element (20_memory.md R62). -/
theorem step_read {a : Access} (hi : s.inputs = .access a :: rest) (hw : a.off < Config.windowSize)
    (hk : a.kind = .read) :
    step s = .next ((s.setInputs rest).setResponse (some (a.response (s.setInputs rest)))) := by
  have hp : performAccess a (s.setInputs rest) = .next (s.setInputs rest) := by rw [performAccess, hk]
  rw [step_access hi hw, hp, ite_self]
  rfl

section
variable {m : Master} {off : Nat} {v : Word}

/-- An aligned 32-bit read returns the register map's word (20_memory.md R58). -/
theorem step_read_aligned (hi : s.inputs = .access ⟨m, off, 4, .read⟩ :: rest) (hw : off < Config.windowSize)
    (ha : off % 4 = 0) :
    step s = .next ((s.setInputs rest).setResponse (some ⟨m, false, some (readWord off s)⟩)) := by
  rw [step_read hi hw rfl, Access.response, isBusError_of_aligned m .read ha]
  rfl

/-- An aligned 32-bit write is answered with no bus error and no data, after what it does. -/
theorem step_write (hi : s.inputs = .access ⟨m, off, 4, .write v⟩ :: rest) (hw : off < Config.windowSize)
    (ha : off % 4 = 0) :
    step s = withResponse ⟨m, false, none⟩ (performAccess ⟨m, off, 4, .write v⟩ (s.setInputs rest)) := by
  rw [step_access hi hw, Access.response, isBusError_of_aligned m (.write v) ha]
  rfl

/-- An aligned 32-bit write to CMD runs its word (20_memory.md R57). -/
theorem step_write_cmd (hi : s.inputs = .access ⟨m, 0x000, 4, .write v⟩ :: rest) :
    step s = withResponse ⟨m, false, none⟩ (runWord v (s.setInputs rest)) :=
  step_write hi (by decide) rfl

/-- An aligned 32-bit write elsewhere does what `writeWord` says and starts no command (20_memory.md R62). -/
theorem step_write_register (hi : s.inputs = .access ⟨m, off, 4, .write v⟩ :: rest) (hw : off < Config.windowSize)
    (ha : off % 4 = 0) (h0 : off ≠ 0x000) :
    step s = .next ((writeWord off v (s.setInputs rest)).setResponse (some ⟨m, false, none⟩)) := by
  have hp : performAccess ⟨m, off, 4, .write v⟩ (s.setInputs rest) = .next (writeWord off v (s.setInputs rest)) :=
    if_neg h0
  rw [step_write hi hw ha, hp]
  rfl

end

end

/-! ### The register map: the buffer windows and the offsets with nothing behind them -/

section
variable {off : Nat} (s : State)

theorem readWord_cb (hl : 0x040 ≤ off) (hh : off < 0x048) : readWord off s = laneWord s.cb (off - 0x040) := by
  unfold readWord
  repeat rw [if_neg (by omega)]
  rw [if_pos ⟨hl, hh⟩]

theorem readWord_key (hl : 0x080 ≤ off) (hh : off < 0x0C0) : readWord off s = laneWord s.key (off - 0x080) := by
  unfold readWord
  repeat rw [if_neg (by omega)]
  rw [if_pos ⟨hl, hh⟩]

theorem readWord_digest (hl : 0x0C0 ≤ off) (hh : off < 0x100) :
    readWord off s = laneWord s.digest (off - 0x0C0) := by
  unfold readWord
  repeat rw [if_neg (by omega)]
  rw [if_pos ⟨hl, hh⟩]

theorem readWord_token (hl : 0x100 ≤ off) (hh : off < 0x10C) : readWord off s = laneWord s.token (off - 0x100) := by
  unfold readWord
  repeat rw [if_neg (by omega)]
  rw [if_pos ⟨hl, hh⟩]

/-- Reserved offsets read 0 (20_memory.md R54). -/
theorem readWord_reserved
    (h : (0x024 ≤ off ∧ off < 0x040) ∨ (0x048 ≤ off ∧ off < 0x080) ∨ 0x10C ≤ off) : readWord off s = 0 := by
  unfold readWord
  repeat rw [if_neg (by omega)]

theorem writeWord_digest (v : Word) (hl : 0x0C0 ≤ off) (hh : off < 0x100) :
    writeWord off v s = s.setDigest (writeLanes s.digest (off - 0x0C0) v) := by
  unfold writeWord
  repeat rw [if_neg (by omega)]
  rw [if_pos ⟨hl, hh⟩]

/-- A write outside CNT_LO, CNT_HI, DSTAT and the DIGEST window is ignored (20_memory.md R62). -/
theorem writeWord_ignored (v : Word) (hlo : off ≠ 0x00C) (hhi : off ≠ 0x010) (hds : off ≠ 0x014)
    (hdg : ¬ (0x0C0 ≤ off ∧ off < 0x100)) : writeWord off v s = s := by
  unfold writeWord
  rw [if_neg hlo, if_neg hhi, if_neg hds, if_neg hdg]

/-- A write to DSTAT uses bits 1 and 0 of its word only (10_state.md R26). -/
theorem writeWord_dstat_masked (v : Word) : writeWord 0x014 v s = writeWord 0x014 (v &&& 0x00000003) s := by
  have h0 : (v &&& 0x00000003).getLsbD 0 = v.getLsbD 0 := by simp
  have h1 : (v &&& 0x00000003).getLsbD 1 = v.getLsbD 1 := by simp
  rw [writeWord_dstat, writeWord_dstat, h0, h1]

end

/-- An aligned 32-bit write to an offset that `writeWord` ignores changes no element, and gets no bus error
(20_memory.md R54, 10_state.md R31). -/
theorem step_write_ignored {s : State} {m : Master} {off : Nat} {v : Word} {rest : List Input}
    (hi : s.inputs = .access ⟨m, off, 4, .write v⟩ :: rest) (hw : off < Config.windowSize) (ha : off % 4 = 0)
    (hcmd : off ≠ 0x000) (hlo : off ≠ 0x00C) (hhi : off ≠ 0x010) (hds : off ≠ 0x014)
    (hdg : ¬ (0x0C0 ≤ off ∧ off < 0x100)) :
    step s = .next ((s.setInputs rest).setResponse (some ⟨m, false, none⟩)) := by
  rw [step_write_register hi hw ha hcmd, writeWord_ignored _ v hlo hhi hds hdg]

/-! ### Reserved bits of the registers -/

section
variable (s : State)

theorem statusWord_reserved : (statusWord s).extractLsb' 6 26 = 0 := by
  ext k hk
  simp only [statusWord]
  grind

theorem b32statWord_reserved_7_5 : (b32statWord s).extractLsb' 5 3 = 0 := by
  ext k hk
  simp only [b32statWord]
  grind

theorem b32statWord_reserved_15 : (b32statWord s).getLsbD 15 = false := by
  simp only [b32statWord]
  grind

theorem b32statWord_reserved_31_23 : (b32statWord s).extractLsb' 23 9 = 0 := by
  ext k hk
  simp only [b32statWord]
  grind

theorem dstatWord_reserved : (dstatWord s).extractLsb' 2 30 = 0 := by
  ext k hk
  simp only [dstatWord]
  grind

theorem tresWord_reserved_7_4 : (tresWord s).extractLsb' 4 4 = 0 := by
  ext k hk
  simp only [tresWord]
  grind

theorem tresWord_reserved_31_12 : (tresWord s).extractLsb' 12 20 = 0 := by
  ext k hk
  simp only [tresWord]
  grind

theorem trawWord_reserved : (trawWord s).getLsbD 31 = false := by
  simp only [trawWord]
  grind

end

end Sys2Proof.Machine
end

section
/-! SUPPORT. The obligations about the bus of 20_memory.md: side effects (R62), bus errors (R51, R52, R64), reserved and
read-only places (R54), byte lanes (R55). -/

namespace Sys2Proof.Machine

/-- Settles O19: a read by `step_read`, a write by the element that the register map puts behind its offset. -/
theorem busAccessesHaveOnlyTheirEffect : Obligations.BusAccessesHaveOnlyTheirEffect := by
  unfold Obligations.BusAccessesHaveOnlyTheirEffect
  refine ⟨fun s a rest hi hw hk => ⟨_, step_read hi hw hk⟩, fun s m off v rest hi hw ha => ?_⟩
  refine ⟨?cmd, ?cntLo, ?cntHi, ?dstat, ?digest, ?ignored⟩
  case cmd =>
    rintro rfl
    exact step_write_cmd hi
  case cntLo =>
    rintro rfl
    exact step_write_register hi hw ha (by decide)
  case cntHi =>
    rintro rfl
    exact step_write_register hi hw ha (by decide)
  case dstat =>
    rintro rfl
    exact step_write_register hi hw ha (by decide)
  case digest =>
    intro hl hh
    refine ⟨writeLanes s.digest (off - 0x0C0) v, ?_, fun j => byteAt_writeLanes s.digest (off - 0x0C0) v j⟩
    rw [step_write_register hi hw ha (by omega), writeWord_digest _ v hl hh, State.setInputs_digest]
    -- With the new bytes opaque, the two record updates are compared field by field at once.
    generalize writeLanes s.digest (off - 0x0C0) v = digest
    rfl
  case ignored =>
    intro hcmd hlo hhi hds hdg
    exact step_write_ignored hi hw ha hcmd hlo hhi hds hdg

/-- Settles O20: `step_busError`, with the bus error read off the alignment and the size. -/
theorem busErrorsChangeNothing : Obligations.BusErrorsChangeNothing := by
  unfold Obligations.BusErrorsChangeNothing
  intro s a rest hi hw hb
  exact step_busError hi hw ((isBusError_iff a).mpr hb)

/-- Settles O23: reserved offsets read 0, no place named is behind CMD, CNT_LO, CNT_HI, DSTAT or DIGEST, and reserved
bits are zeros of the registers' words. -/
theorem reservedAndReadOnlyPlacesAreHarmless : Obligations.ReservedAndReadOnlyPlacesAreHarmless := by
  unfold Obligations.ReservedAndReadOnlyPlacesAreHarmless
  refine ⟨fun s m off k rest hi ha hoff => ?reserved, fun s m off v rest hi ha hoff => ?readOnly,
    fun s => ?reservedBits, fun s v => writeWord_dstat_masked s v⟩
  case reserved =>
    have hw : off < 0x200 := by omega
    cases k with
    | read =>
      have h0 : readWord off s = 0 := readWord_reserved s (by omega)
      rw [step_read_aligned hi hw ha, h0]
      rfl
    | write v => exact step_write_ignored hi hw ha (by omega) (by omega) (by omega) (by omega) (by omega)
  case readOnly =>
    have hw : off < 0x200 := by omega
    exact step_write_ignored hi hw ha (by omega) (by omega) (by omega) (by omega) (by omega)
  case reservedBits =>
    exact ⟨statusWord_reserved s, b32statWord_reserved_7_5 s, b32statWord_reserved_15 s, b32statWord_reserved_31_23 s,
      dstatWord_reserved s, tresWord_reserved_7_4 s, tresWord_reserved_31_12 s, trawWord_reserved s⟩

/-- Settles O24: lane by lane, `laneWord_lane` for the reads and `byteAt_writeLanes` for the DIGEST write. -/
theorem bufferLanesAreLittleEndian : Obligations.BufferLanesAreLittleEndian := by
  unfold Obligations.BufferLanesAreLittleEndian
  refine ⟨fun s off j _ hj => ⟨fun hl hh => ?cb, fun hl hh => ?key, fun hl hh => ?digest, fun hl hh => ?token⟩,
    fun s off v _ hl hh => ⟨writeLanes s.digest (off - 0x0C0) v, writeWord_digest s v hl hh, fun n hn => ?write⟩⟩
  case cb =>
    rw [readWord_cb s hl hh]
    exact laneWord_lane s.cb _ hj
  case key =>
    rw [readWord_key s hl hh]
    exact laneWord_lane s.key _ hj
  case digest =>
    rw [readWord_digest s hl hh]
    exact laneWord_lane s.digest _ hj
  case token =>
    rw [readWord_token s hl hh]
    exact laneWord_lane s.token _ hj
  case write =>
    have h := byteAt_writeLanes s.digest (off - 0x0C0) v n
    rw [byteAt_of_lt _ hn, byteAt_of_lt _ hn] at h
    simpa only [hn, and_true] using h

end Sys2Proof.Machine
end

section
/-! SUPPORT. The decoder by the fields of a word (30_encoding.md R81 to R87): which words decode to a given command,
the masks of the opcode map, and which fields belong to some command. -/

namespace Sys2Proof

/-! ### Fields and masks -/

/-- A word is put together from three fields exactly when these are its RSV, ARG and OP (30_encoding.md R81). -/
theorem eq_append_iff_fields {w : Word} {r : BitVec 16} {a o : BitVec 8} :
    w = r ++ a ++ o ↔ rsvField w = r ∧ argField w = a ∧ opField w = o := by
  constructor
  · rintro rfl
    simp
  · rintro ⟨rfl, rfl, rfl⟩
    exact word_fields w

/-- The mask of a row with an operand keeps RSV and OP and clears ARG (30_encoding.md R83). -/
theorem and_argMask (w : Word) : w &&& 0xFFFF00FF = rsvField w ++ 0#8 ++ opField w := by
  have hmask : (0xFFFF00FF : Word) = BitVec.allOnes 16 ++ 0#8 ++ BitVec.allOnes 8 := rfl
  conv_lhs => rw [hmask, word_fields w]
  rw [BitVec.and_append, BitVec.and_append, BitVec.and_allOnes, BitVec.and_zero, BitVec.and_allOnes]

/-- The match of a row with an operand: RSV is 0 and OP is the row's (30_encoding.md R83). -/
theorem and_argMask_eq_iff {w : Word} {o : BitVec 8} :
    w &&& 0xFFFF00FF = 0#16 ++ 0#8 ++ o ↔ rsvField w = 0 ∧ opField w = o := by
  rw [and_argMask, eq_append_iff_fields]
  simp

/-- The match of a row without an operand: RSV and ARG are 0 and OP is the row's (30_encoding.md R83). -/
theorem and_fullMask_eq_iff {w : Word} {o : BitVec 8} :
    w &&& 0xFFFFFFFF = 0#16 ++ 0#8 ++ o ↔ rsvField w = 0 ∧ argField w = 0 ∧ opField w = o := by
  have hw : w &&& 0xFFFFFFFF = w := BitVec.and_allOnes
  rw [hw, eq_append_iff_fields]
  rfl

/-- ARG holds a number that fits it exactly when the number is ARG's value (30_encoding.md R82). -/
theorem eq_ofNat_and_lt_iff {a : BitVec 8} {m : Nat} : a = BitVec.ofNat 8 m ∧ m < 256 ↔ m = a.toNat := by
  constructor
  · rintro ⟨rfl, hm⟩
    rw [BitVec.toNat_ofNat, Nat.mod_eq_of_lt hm]
  · rintro rfl
    exact ⟨by simp, a.isLt⟩

/-! ### The words of a command -/

/-- A decoded command is well formed: its operand was read from ARG (30_encoding.md R82). -/
theorem wellFormed_of_decode {w : Word} {i : Instr} (h : decode w = .ok i) : i.wellFormed = true := by
  have harg : (argField w).toNat < 256 := (argField w).isLt
  have hrsv := rsvField_of_decode h
  obtain ⟨hop, -⟩ := fields_of_decode h
  unfold decode at h
  rw [if_pos hrsv, hop] at h
  cases i with
  | b32Init m => cases h; exact decide_eq_true harg
  | trunc d => cases h; exact decide_eq_true harg
  | nop | b32Push _ | b32Finish | ctrEnc | srst => rfl

/-- The fields of a well-formed command's word decode to it (30_encoding.md R84). -/
theorem decode_of_fields {w : Word} {i : Instr} (hrsv : rsvField w = 0) (hop : opField w = i.opcode)
    (harg : argField w = i.arg) (hwf : i.wellFormed = true) : decode w = .ok i := by
  unfold decode
  rw [if_pos hrsv, hop]
  cases i with
  | nop => exact withoutArg_ok.mpr ⟨harg, rfl⟩
  | b32Init m =>
    obtain rfl := eq_ofNat_and_lt_iff.mp ⟨harg, of_decide_eq_true hwf⟩
    rfl
  | b32Push c =>
    obtain rfl : argField w = c := harg
    rfl
  | b32Finish => exact withoutArg_ok.mpr ⟨harg, rfl⟩
  | ctrEnc => exact withoutArg_ok.mpr ⟨harg, rfl⟩
  | trunc d =>
    obtain rfl := eq_ofNat_and_lt_iff.mp ⟨harg, of_decide_eq_true hwf⟩
    rfl
  | srst => exact withoutArg_ok.mpr ⟨harg, rfl⟩

/-- The decoder by fields: RSV is 0, OP and ARG are the command's, and the command is well formed. -/
theorem decode_eq_ok_iff {w : Word} {i : Instr} :
    decode w = .ok i ↔
      rsvField w = 0 ∧ opField w = i.opcode ∧ argField w = i.arg ∧ i.wellFormed = true := by
  constructor
  · intro h
    obtain ⟨hop, harg⟩ := fields_of_decode h
    exact ⟨rsvField_of_decode h, hop, harg, wellFormed_of_decode h⟩
  · rintro ⟨hrsv, hop, harg, hwf⟩
    exact decode_of_fields hrsv hop harg hwf

/-! ### The rows of the opcode map -/

/-- A row whose ARG is reserved fixes the whole word (30_encoding.md R83, R85). -/
theorem decode_eq_ok_iff_fullMask {w : Word} {i : Instr} (harg : i.arg = 0) (hwf : i.wellFormed = true) :
    decode w = .ok i ↔ w &&& 0xFFFFFFFF = 0#16 ++ 0#8 ++ i.opcode := by
  rw [decode_eq_ok_iff, and_fullMask_eq_iff, harg, and_iff_left hwf, and_comm (a := opField w = i.opcode)]

/-- A row with an operand leaves ARG free, and ARG holds the operand (30_encoding.md R82, R83). -/
theorem decode_eq_ok_iff_argMask {w : Word} {i : Instr} :
    decode w = .ok i ↔
      w &&& 0xFFFF00FF = 0#16 ++ 0#8 ++ i.opcode ∧ argField w = i.arg ∧ i.wellFormed = true := by
  rw [decode_eq_ok_iff, and_argMask_eq_iff, and_assoc]

/-- A row whose operand is a number, which is the value of ARG (30_encoding.md R82, R83). -/
theorem decode_eq_ok_iff_numberMask {w : Word} {i : Instr} {n : Nat} {o : BitVec 8} (hop : i.opcode = o)
    (harg : i.arg = BitVec.ofNat 8 n) (hwf : i.wellFormed = decide (n < 256)) :
    decode w = .ok i ↔ w &&& 0xFFFF00FF = 0#16 ++ 0#8 ++ o ∧ n = (argField w).toNat := by
  rw [decode_eq_ok_iff_argMask, hop, harg, hwf, decide_eq_true_iff, eq_ofNat_and_lt_iff]

/-- B32_PUSH's row: ARG is the character itself. -/
theorem decode_b32Push_iff {w : Word} {c : Byte} :
    decode w = .ok (.b32Push c) ↔ w &&& 0xFFFF00FF = 0#16 ++ 0#8 ++ (0x02 : BitVec 8) ∧ c = argField w := by
  have hwf : (Instr.b32Push c).wellFormed = true := rfl
  rw [decode_eq_ok_iff_argMask, and_iff_left hwf, Instr.arg, Instr.opcode, eq_comm (a := c)]

/-! ### Illegal words -/

theorem Instr.opcode_not_reserved (i : Instr) : i.opcode.toNat ≤ 0x05 ∨ i.opcode.toNat = 0x0F := by
  cases i <;> simp [Instr.opcode]

/-- ARG is 0 in the commands whose ARG is reserved (30_encoding.md R85). -/
theorem Instr.arg_eq_zero {i : Instr}
    (h : i.opcode.toNat = 0x00 ∨ i.opcode.toNat = 0x03 ∨ i.opcode.toNat = 0x04 ∨ i.opcode.toNat = 0x0F) :
    i.arg = 0 := by
  cases i with
  | nop | b32Finish | ctrEnc | srst => rfl
  | b32Init _ | b32Push _ | trunc _ => simp [Instr.opcode] at h

/-- An illegal word, in the decoder's names of the fields (30_encoding.md R85, R86). -/
theorem illegalWord_iff {w : Word} :
    Claims.IllegalWord w ↔
      rsvField w ≠ 0 ∨ (0x06 ≤ (opField w).toNat ∧ (opField w).toNat ≤ 0x0E) ∨ 0x10 ≤ (opField w).toNat ∨
        (((opField w).toNat = 0x00 ∨ (opField w).toNat = 0x03 ∨ (opField w).toNat = 0x04 ∨ (opField w).toNat = 0x0F) ∧
          argField w ≠ 0) :=
  Iff.rfl

/-- A word that decodes is not illegal: no command has a reserved OP, and the ARG of a command that takes none is 0. -/
theorem not_illegalWord_of_decode {w : Word} {i : Instr} (h : decode w = .ok i) : ¬ Claims.IllegalWord w := by
  obtain ⟨hop, harg⟩ := fields_of_decode h
  have hi := i.opcode_not_reserved
  rw [illegalWord_iff, hop, harg]
  rintro (hrsv | hmid | hhigh | ⟨hnoArg, harg0⟩)
  · exact hrsv (rsvField_of_decode h)
  · omega
  · omega
  · exact harg0 (Instr.arg_eq_zero hnoArg)

/-- A word that is not illegal decodes: OP is a command's, and ARG is 0 where it must be (30_encoding.md R87). -/
theorem exists_decode_of_not_illegalWord {w : Word} (h : ¬ Claims.IllegalWord w) : ∃ i, decode w = .ok i := by
  rw [illegalWord_iff] at h
  push Not at h
  obtain ⟨hrsv, hmid, hhigh, harg⟩ := h
  have hop : (opField w).toNat = 0x00 ∨ (opField w).toNat = 0x01 ∨ (opField w).toNat = 0x02 ∨
      (opField w).toNat = 0x03 ∨ (opField w).toNat = 0x04 ∨ (opField w).toNat = 0x05 ∨ (opField w).toNat = 0x0F := by
    omega
  rcases hop with hop | hop | hop | hop | hop | hop | hop
  · exact ⟨.nop, decode_of_fields hrsv (BitVec.eq_of_toNat_eq hop) (harg (by omega)) rfl⟩
  · exact ⟨.b32Init (argField w).toNat,
      decode_of_fields hrsv (BitVec.eq_of_toNat_eq hop) (by simp [Instr.arg]) (decide_eq_true (argField w).isLt)⟩
  · exact ⟨.b32Push (argField w), decode_of_fields hrsv (BitVec.eq_of_toNat_eq hop) rfl rfl⟩
  · exact ⟨.b32Finish, decode_of_fields hrsv (BitVec.eq_of_toNat_eq hop) (harg (by omega)) rfl⟩
  · exact ⟨.ctrEnc, decode_of_fields hrsv (BitVec.eq_of_toNat_eq hop) (harg (by omega)) rfl⟩
  · exact ⟨.trunc (argField w).toNat,
      decode_of_fields hrsv (BitVec.eq_of_toNat_eq hop) (by simp [Instr.arg]) (decide_eq_true (argField w).isLt)⟩
  · exact ⟨.srst, decode_of_fields hrsv (BitVec.eq_of_toNat_eq hop) (harg (by omega)) rfl⟩

/-- The decodable words are the words that are not illegal (30_encoding.md R87). -/
theorem exists_decode_iff {w : Word} : (∃ i, decode w = .ok i) ↔ ¬ Claims.IllegalWord w :=
  ⟨fun ⟨_, h⟩ => not_illegalWord_of_decode h, exists_decode_of_not_illegalWord⟩

/-- The decoder answers an illegal word by refusing it (30_encoding.md R84). -/
theorem decode_of_illegalWord {w : Word} (h : Claims.IllegalWord w) : ∃ e, decode w = .error e := by
  cases hd : decode w with
  | ok i => exact absurd h (not_illegalWord_of_decode hd)
  | error e => exact ⟨e, rfl⟩

namespace Machine

/-- The only effect of an illegal word is ERR (30_encoding.md R85, R86). -/
theorem runWord_of_illegalWord {w : Word} (h : Claims.IllegalWord w) (s : State) :
    runWord w s = .next (s.setErr .illegal) := by
  obtain ⟨e, he⟩ := decode_of_illegalWord h
  rw [runWord, he]
  rfl

end Machine

end Sys2Proof
end

section
/-! SUPPORT. The obligations about the encoding of 30_encoding.md: the opcode map (R83), legal and illegal words (R85 to
R87). -/

namespace Sys2Proof.Machine

/-- Settles O3: a row without an operand by `decode_eq_ok_iff_fullMask`, a row with one by the mask that leaves ARG
free, and a reserved OP as an illegal word. -/
theorem decodeFollowsTheOpcodeMap : Obligations.DecodeFollowsTheOpcodeMap := by
  unfold Obligations.DecodeFollowsTheOpcodeMap
  intro w
  exact ⟨decode_eq_ok_iff_fullMask rfl rfl, fun m => decode_eq_ok_iff_numberMask (o := 0x01) rfl rfl rfl,
    fun c => decode_b32Push_iff, decode_eq_ok_iff_fullMask rfl rfl, decode_eq_ok_iff_fullMask rfl rfl,
    fun d => decode_eq_ok_iff_numberMask (o := 0x05) rfl rfl rfl, decode_eq_ok_iff_fullMask rfl rfl,
    fun _ hop => decode_of_illegalWord (.inr (hop.imp_right .inl))⟩

/-- Settles O4: the decodable words are the legal ones, and the decoder is a function. -/
theorem everyWordIsOneCommandOrIllegal : Obligations.EveryWordIsOneCommandOrIllegal := by
  unfold Obligations.EveryWordIsOneCommandOrIllegal
  intro w
  exact ⟨exists_decode_iff, fun i j hi hj => Except.ok.inj (hi.symm.trans hj)⟩

/-- Settles O5: these are the first three ways of being an illegal word. -/
theorem illegalWordsOnlySetErr : Obligations.IllegalWordsOnlySetErr := by
  unfold Obligations.IllegalWordsOnlySetErr
  refine ⟨rfl, fun w s h => runWord_of_illegalWord ?_ s⟩
  exact h.imp_right (Or.imp_right .inl)

/-- Settles O6: this is the fourth way of being an illegal word. -/
theorem reservedArgumentIsIllegal : Obligations.ReservedArgumentIsIllegal := by
  unfold Obligations.ReservedArgumentIsIllegal
  refine ⟨rfl, fun w s _ hop harg => runWord_of_illegalWord (.inr (.inr (.inr ⟨?_, harg⟩))) s⟩
  rcases hop with hop | hop | hop | hop <;> simp [hop]

end Sys2Proof.Machine
end

section
/-! SUPPORT. The decoder's commands, one equation per command and decoder state (41_base32.md R103 to R110), the alphabet
by position (R101, R102), the bytes of a flush and of a full group (R112, R113), and decodes that write no byte (R110). -/

namespace Sys2Proof.Machine

/-! ### The alphabet -/

/-- The letters stand at 0 to 25 (41_base32.md R101). -/
theorem alphabet_letter {c : Byte} (hl : 0x41 ≤ c.toNat) (hh : c.toNat ≤ 0x5A) : alphabet[c.toNat - 0x41]? = some c := by
  have hi : c.toNat - 0x41 < 26 := by omega
  have hc : 0x41 + (c.toNat - 0x41) = c.toNat := by omega
  rw [alphabet, List.getElem?_append_left (by simpa using hi), List.getElem?_map, List.getElem?_range hi,
    Option.map_some, hc, BitVec.ofNat_toNat, BitVec.setWidth_eq]

/-- The digits stand at 26 to 31 (41_base32.md R101). -/
theorem alphabet_digit {c : Byte} (hl : 0x32 ≤ c.toNat) (hh : c.toNat ≤ 0x37) :
    alphabet[c.toNat - 0x32 + 26]? = some c := by
  have hi : c.toNat - 0x32 < 6 := by omega
  have hc : 0x32 + (c.toNat - 0x32) = c.toNat := by omega
  rw [alphabet, List.getElem?_append_right (by simp), List.length_map, List.length_range, Nat.add_sub_cancel,
    List.getElem?_map, List.getElem?_range hi, Option.map_some, hc, BitVec.ofNat_toNat, BitVec.setWidth_eq]

/-- The position that `sym` gives is the character's (41_base32.md R102). -/
theorem alphabet_of_sym {c : Byte} {v : BitVec 5} (h : sym c = some v) : alphabet[v.toNat]? = some c := by
  unfold sym at h
  split at h
  · next hc =>
    cases h
    rw [BitVec.toNat_ofNat, Nat.mod_eq_of_lt (by omega), alphabet_letter hc.1 hc.2]
  · split at h
    · next hc =>
      cases h
      rw [BitVec.toNat_ofNat, Nat.mod_eq_of_lt (by omega), alphabet_digit hc.1 hc.2]
    · cases h

theorem sym_eq_some_iff {c : Byte} {v : BitVec 5} : sym c = some v ↔ alphabet[v.toNat]? = some c := by
  refine ⟨alphabet_of_sym, fun h => ?_⟩
  have hv := sym_alphabet v
  rwa [h] at hv

/-- Outside the ranges of R101 there is no symbol index. -/
theorem sym_eq_none_iff {c : Byte} :
    sym c = none ↔ ¬ ((0x41 ≤ c.toNat ∧ c.toNat ≤ 0x5A) ∨ (0x32 ≤ c.toNat ∧ c.toNat ≤ 0x37)) := by
  unfold sym
  split
  · next hc => simp [hc]
  · next hc =>
    split
    · next hd => simp [hd]
    · next hd => simp [hc, hd]

/-! ### The commands, state by state -/

section
variable {s : State} {c : Byte} {m : Nat}

theorem exec_b32Init_of_le (s : State) (h : m ≤ 64) : exec (.b32Init m) s = .next (decodeStarted m s) :=
  if_neg (Nat.not_lt.mpr h)

theorem exec_b32Init_of_gt (s : State) (h : 64 < m) : exec (.b32Init m) s = .next (s.setErr .badMaxlen) :=
  if_pos h

theorem exec_b32Push_ended (h : s.b32st = .stopped ∨ s.b32st = .finished) (c : Byte) :
    exec (.b32Push c) s = .next (s.setErr .ok) := by
  rcases h with h | h <;> simp [exec, execB32Push, h]

theorem exec_b32Push_terminator (ha : s.b32st = .active) (hc : sym c = none) :
    exec (.b32Push c) s = .next (((flush s).setB32st .stopped).setErr .ok) := by
  simp [exec, execB32Push, ha, hc]

theorem exec_b32Push_symbol {v : BitVec 5} (ha : s.b32st = .active) (hc : sym c = some v) :
    exec (.b32Push c) s = .next ((pushSymbol v s).setErr .ok) := by
  simp [exec, execB32Push, ha, hc]

theorem exec_b32Finish_of_not_idle (h : s.b32st ≠ .idle) :
    exec .b32Finish s =
      .next ((endInput s).setErr (if (endInput s).klen = 0 then .emptyKey else .ok)) := if_neg h

theorem endInput_of_active (ha : s.b32st = .active) : endInput s = (flush s).setB32st .finished := by
  rw [endInput, if_pos ha]

theorem endInput_of_not_active (ha : s.b32st ≠ .active) : endInput s = s.setB32st .finished := by
  rw [endInput, if_neg ha]

end

/-! ### Runs -/

/-- A run of two lists of commands is the second's run from where the first ends. -/
theorem runInstrs_append {is js : List Instr} {s t : State} (h : runInstrs is s = .next t) :
    runInstrs (is ++ js) s = runInstrs js t := by
  induction is generalizing s with
  | nil => cases h; rfl
  | cons i is ih =>
    rw [runInstrs] at h
    rw [List.cons_append, runInstrs]
    split at h
    · exact ih h
    · cases h
    · cases h

/-- Characters after the end of the input change nothing where ERR is OK already (41_base32.md R108). -/
theorem runInstrs_pushes_ended {s : State} (h : s.b32st = .stopped ∨ s.b32st = .finished) (he : s.err = .ok)
    (cs : List Byte) : runInstrs (cs.map .b32Push) s = .next s := by
  have hpush : ∀ c, exec (.b32Push c) s = .next s := fun c => by
    rw [exec_b32Push_ended h, ← he]
    rfl
  induction cs with
  | nil => rfl
  | cons c cs ih => rw [List.map_cons, runInstrs_cons (hpush c), ih]

/-! ### The bytes of a flush -/

/-- The key after a flush: the whole bytes of the group's number, while space remains (41_base32.md R106, R113,
R114). -/
theorem flush_appended {s : State} (h : Claims.CapacityOk s) :
    Claims.Appended s s.acc.toNat (5 * s.nsym.toNat) (flush s).key (flush s).klen := by
  obtain ⟨hle, hmax⟩ := h
  refine ⟨flush_klen hle, fun i => ?_⟩
  have hshift : 5 * s.nsym.toNat - 8 * (i - s.klen.toNat + 1) = 5 * s.nsym.toNat - 8 - 8 * (i - s.klen.toNat) := by
    omega
  rw [flush_key hle hmax, hshift]
  split
  · rw [BitVec.extractLsb'_toNat, Nat.shiftRight_eq_div_pow]
  · rfl

/-- `emit` does not read the bits of ACC that it does not emit: with another ACC that has the same bytes, the first `n`
turns do the same (41_base32.md R105, R118). -/
theorem emitUpTo_setGroup {k n : Nat} {s : State} {acc : BitVec 40} (nsym : BitVec 3)
    (h : ∀ j, j < n → acc.extractLsb' (5 * k - 8 - 8 * j) 8 = s.acc.extractLsb' (5 * k - 8 - 8 * j) 8) :
    emitUpTo k n (s.setGroup acc nsym) = (emitUpTo k n s).setGroup acc nsym := by
  induction n with
  | zero => rfl
  | succ n ih =>
    have hbyte := h n (Nat.lt_succ_self n)
    rw [emitUpTo_succ, emitUpTo_succ, ih fun j hj => h j (by omega), emitByte, emitByte, State.setGroup_klen,
      State.setGroup_kmax, State.setGroup_acc, State.setGroup_key, hbyte, emitUpTo_acc]
    split <;> rfl

/-- Two numbers that agree above their low `r` bits have the same bytes there. -/
theorem extractLsb'_eq_of_high_eq {a b : BitVec 40} {r p : Nat} (hp : r ≤ p)
    (h : a.toNat / 2 ^ r = b.toNat / 2 ^ r) : a.extractLsb' p 8 = b.extractLsb' p 8 := by
  obtain ⟨d, rfl⟩ := Nat.exists_eq_add_of_le hp
  apply BitVec.eq_of_toNat_eq
  rw [BitVec.extractLsb'_toNat, BitVec.extractLsb'_toNat, Nat.shiftRight_eq_div_pow, Nat.shiftRight_eq_div_pow,
    Nat.pow_add, ← Nat.div_div_eq_div_mul, ← Nat.div_div_eq_div_mul, h]

/-- A flush does not read the low `5k mod 8` bits of the group (41_base32.md R118). -/
theorem flush_setAcc {s : State} {acc : BitVec 40}
    (h : acc.toNat / 2 ^ (5 * s.nsym.toNat % 8) = s.acc.toNat / 2 ^ (5 * s.nsym.toNat % 8)) :
    flush (s.setGroup acc s.nsym) = flush s := by
  rw [flush_eq_emit, flush_eq_emit, State.setGroup_nsym, emit_eq_emitUpTo, emit_eq_emitUpTo, emitUpTo_setGroup]
  · rfl
  · intro j hj
    exact extractLsb'_eq_of_high_eq (by omega) h

/-! ### A full group -/

section
variable (s0 s1 s2 s3 s4 s5 s6 s7 : BitVec 5)

/-- The 40 bits of a full group, first symbol in the most significant 5 (41_base32.md R112). -/
def groupBits : BitVec 40 := s0 ++ s1 ++ s2 ++ s3 ++ s4 ++ s5 ++ s6 ++ s7

/-- The 8th symbol joins below the seven before it (41_base32.md R107). -/
theorem joined_eq_groupBits {s : State} (h : s.acc = 0#5 ++ s0 ++ s1 ++ s2 ++ s3 ++ s4 ++ s5 ++ s6) :
    joined s7 s = groupBits s0 s1 s2 s3 s4 s5 s6 s7 := by
  unfold joined groupBits
  rw [h]
  ext k hk
  grind

/-- The five bytes of a full group (41_base32.md R112). -/
theorem groupBits_bytes :
    (groupBits s0 s1 s2 s3 s4 s5 s6 s7).extractLsb' 32 8 = s0 ++ s1.extractLsb' 2 3 ∧
    (groupBits s0 s1 s2 s3 s4 s5 s6 s7).extractLsb' 24 8 = s1.extractLsb' 0 2 ++ s2 ++ s3.extractLsb' 4 1 ∧
    (groupBits s0 s1 s2 s3 s4 s5 s6 s7).extractLsb' 16 8 = s3.extractLsb' 0 4 ++ s4.extractLsb' 1 4 ∧
    (groupBits s0 s1 s2 s3 s4 s5 s6 s7).extractLsb' 8 8 = s4.extractLsb' 0 1 ++ s5 ++ s6.extractLsb' 3 2 ∧
    (groupBits s0 s1 s2 s3 s4 s5 s6 s7).extractLsb' 0 8 = s6.extractLsb' 0 3 ++ s7 := by
  unfold groupBits
  refine ⟨?_, ?_, ?_, ?_, ?_⟩ <;> (ext k hk; grind)

end

/-- The state after the 8th symbol: KEY, KLEN, the group and, where KEY is full, B32ST (41_base32.md R107, R114). -/
theorem pushSymbol_full_frame (v : BitVec 5) {s : State} (h : s.nsym.toNat = 7) :
    pushSymbol v s = ((s.setKey (groupEmitted v s).key (groupEmitted v s).klen).setGroup 0 0).setB32st
      (if (groupEmitted v s).klen.toNat = s.kmax.toNat then .stopped else s.b32st) := by
  have hframe := groupEmitted_frame v s
  rw [pushSymbol_full v h]
  generalize groupEmitted v s = t at hframe ⊢
  have hkmax : t.kmax = s.kmax := by rw [hframe]; rfl
  rw [hkmax]
  by_cases hfull : t.klen = s.kmax
  · rw [if_pos hfull, if_pos (congrArg _ hfull)]
    exact congrArg (State.setB32st · .stopped) hframe
  · rw [if_neg hfull, if_neg (mt BitVec.eq_of_toNat_eq hfull)]
    exact hframe

/-! ### Decodes without a key byte -/

/-- No key byte is written yet, and `p` more symbols will not complete one: fewer than 8 bits in all, or the input has
ended (41_base32.md R110). -/
def NoByteWith (p : Nat) (s : State) : Prop :=
  s.klen = 0 ∧ (s.b32st = .stopped ∨ (s.b32st = .active ∧ s.nsym.toNat + p ≤ 1))

/-- A group of at most one symbol flushes to no byte (41_base32.md R113). -/
theorem flush_klen_zero {s : State} (hk : s.klen = 0) (hn : s.nsym.toNat ≤ 1) : (flush s).klen = 0 := by
  have hz : s.klen.toNat = 0 := by rw [hk]; rfl
  have h := flush_klen (s := s) (by omega)
  apply BitVec.eq_of_toNat_eq
  have h0 : (0 : BitVec 7).toNat = 0 := rfl
  omega

/-- Pushing a text with too few valid symbols for a byte writes none (41_base32.md R110). -/
theorem runInstrs_pushes_noByte {cs : List Byte} {s : State} (h : NoByteWith (validPrefix cs).length s) :
    ∃ t, runInstrs (cs.map .b32Push) s = .next t ∧ NoByteWith 0 t := by
  induction cs generalizing s with
  | nil => exact ⟨s, rfl, h⟩
  | cons c cs ih =>
    obtain ⟨hk, hst | ⟨ha, hn⟩⟩ := h
    · rw [List.map_cons, runInstrs_cons (exec_b32Push_ended (.inl hst) c)]
      exact ih ⟨hk, .inl hst⟩
    · cases hc : sym c with
      | none =>
        rw [List.map_cons, runInstrs_cons (exec_b32Push_terminator ha hc)]
        exact ih ⟨flush_klen_zero hk (by omega), .inl rfl⟩
      | some v =>
        rw [validPrefix, hc, List.length_cons] at hn
        rw [List.map_cons, runInstrs_cons (exec_b32Push_symbol ha hc), pushSymbol_partial v (by omega)]
        refine ih ⟨hk, .inr ⟨ha, ?_⟩⟩
        rw [State.setErr_nsym, State.setGroup_nsym, BitVec.toNat_ofNat]
        omega

theorem decodeStarted_noByte {m : Nat} {cs : List Byte} (s : State) (h : m = 0 ∨ (validPrefix cs).length ≤ 1) :
    NoByteWith (validPrefix cs).length (decodeStarted m s) := by
  refine ⟨rfl, ?_⟩
  by_cases hm : m = 0
  · exact .inl (if_pos hm)
  · refine .inr ⟨if_neg hm, ?_⟩
    have hn : (decodeStarted m s).nsym.toNat = 0 := rfl
    omega

/-- The end of input after a decode that wrote no byte leaves none. -/
theorem endInput_klen_of_noByte {s : State} (h : NoByteWith 0 s) : (endInput s).klen = 0 := by
  obtain ⟨hk, hst | ⟨ha, hn⟩⟩ := h
  · rwa [endInput_of_not_active (by rw [hst]; decide)]
  · rw [endInput_of_active ha]
    exact flush_klen_zero hk (by omega)

/-- B32_FINISH outside IDLE that leaves KLEN = 0 reports EMPTY_KEY, and no key is ready (41_base32.md R109, R110). -/
theorem exec_b32Finish_klen_zero {s t : State} (hne : s.b32st ≠ .idle) (h : exec .b32Finish s = .next t)
    (hk : t.klen = 0) : t.err = .emptyKey ∧ krdy t = false := by
  rw [exec_b32Finish_of_not_idle hne] at h
  cases h
  refine ⟨if_pos hk, decide_eq_false fun hready => ?_⟩
  rw [hk] at hready
  exact absurd hready.2 (by decide)

/-! ### Commands that flush -/

/-- The commands that flush the partial group in ACTIVE leave the flushed key (41_base32.md R106, R108, R109). -/
theorem exec_flushes {i : Instr} {s : State} (ha : s.b32st = .active)
    (hi : i = .b32Finish ∨ ∃ c, i = .b32Push c ∧ sym c = none) :
    ∃ t, exec i s = .next t ∧ t.key = (flush s).key ∧ t.klen = (flush s).klen := by
  obtain rfl | ⟨c, rfl, hc⟩ := hi
  · rw [exec_b32Finish_of_not_idle (by rw [ha]; decide), endInput_of_active ha]
    exact ⟨_, rfl, rfl, rfl⟩
  · exact ⟨_, exec_b32Push_terminator ha hc, rfl, rfl⟩

/-- R113's table of emitted bytes and discarded bits is the quotient and the remainder of `5k` by 8. -/
theorem groupTable {k : Nat} (h : k < 8) :
    [0, 0, 1, 1, 2, 3, 3, 4][k]?.getD 0 = 5 * k / 8 ∧ [0, 5, 2, 7, 4, 1, 6, 3][k]?.getD 0 = 5 * k % 8 := by
  revert k
  decide

end Sys2Proof.Machine
end

section
/-! SUPPORT. What the decoder's commands change and read, and that TRUNC reads none of ACC, NSYM and KMAX (41_base32.md
R120). -/

namespace Sys2Proof.Machine

/-! ### What the decoder's commands change -/

/-- The three commands of the decoder (41_base32.md R103, R107, R109). -/
def IsDecoderCommand (i : Instr) : Prop := (∃ m, i = .b32Init m) ∨ (∃ c, i = .b32Push c) ∨ i = .b32Finish

/-- The state with other decoder elements and another ERR. -/
def withDecoder (s d : State) : State :=
  ((((s.setKey d.key d.klen).setGroup d.acc d.nsym).setKmax d.kmax).setB32st d.b32st).setErr d.err

/-- A decoder command changes the decoder's elements and ERR only (41_base32.md R120). -/
theorem exec_decoder_frame {i : Instr} {s t : State} (hi : IsDecoderCommand i) (h : exec i s = .next t) :
    t = withDecoder s t := by
  obtain ⟨m, rfl⟩ | ⟨c, rfl⟩ | rfl := hi
  · rcases execB32Init_cases m s with ⟨-, e⟩ | ⟨-, e⟩ <;> (cases e.symm.trans h; rfl)
  · rcases execB32Push_cases c s with ⟨-, e⟩ | ⟨-, e⟩ | ⟨-, -, e⟩ | ⟨v, -, -, e⟩ <;> cases e.symm.trans h
    · rfl
    · rfl
    · rw [flush_frame s]; rfl
    · obtain ⟨_, _, _, _, _, hf⟩ := pushSymbol_frame v s
      rw [hf]; rfl
  · rcases execB32Finish_cases s with ⟨-, e⟩ | ⟨-, e⟩ <;> cases e.symm.trans h
    · rfl
    · obtain ⟨_, _, _, _, hf⟩ := endInput_frame s
      rw [hf]; rfl

/-! ### What the decoder's commands read -/

section
variable {s s' : State}

theorem decoderPart_eq_iff : s'.decoderPart = s.decoderPart ↔ s'.b32st = s.b32st ∧ s'.nsym = s.nsym ∧
    s'.klen = s.klen ∧ s'.kmax = s.kmax ∧ s'.acc = s.acc ∧ s'.key = s.key := by
  simp [State.decoderPart]

theorem emitByte_decoderPart (k j : Nat) (h : s'.decoderPart = s.decoderPart) :
    (emitByte k s' j).decoderPart = (emitByte k s j).decoderPart := by
  obtain ⟨hst, hn, hklen, hkmax, hacc, hkey⟩ := decoderPart_eq_iff.mp h
  rw [emitByte, emitByte, hklen, hkmax, hacc, hkey]
  split
  · simp [State.decoderPart, hst, hn, hkmax, hacc]
  · exact h

theorem emit_decoderPart (k : Nat) (h : s'.decoderPart = s.decoderPart) :
    (emit k s').decoderPart = (emit k s).decoderPart := by
  have upTo : ∀ n, (emitUpTo k n s').decoderPart = (emitUpTo k n s).decoderPart := by
    intro n
    induction n with
    | zero => exact h
    | succ n ih => rw [emitUpTo_succ, emitUpTo_succ]; exact emitByte_decoderPart k n ih
  exact upTo _

theorem setGroup_decoderPart (acc : BitVec 40) (n : BitVec 3) (h : s'.decoderPart = s.decoderPart) :
    (s'.setGroup acc n).decoderPart = (s.setGroup acc n).decoderPart := by
  simp_all [State.decoderPart]

theorem setB32st_decoderPart (x : B32State) (h : s'.decoderPart = s.decoderPart) :
    (s'.setB32st x).decoderPart = (s.setB32st x).decoderPart := by
  simp_all [State.decoderPart]

theorem flush_decoderPart (h : s'.decoderPart = s.decoderPart) : (flush s').decoderPart = (flush s).decoderPart := by
  obtain ⟨-, hn, -⟩ := decoderPart_eq_iff.mp h
  rw [flush_eq_emit, flush_eq_emit, hn]
  exact setGroup_decoderPart 0 0 (emit_decoderPart _ h)

theorem groupEmitted_decoderPart (v : BitVec 5) (h : s'.decoderPart = s.decoderPart) :
    (groupEmitted v s').decoderPart = (groupEmitted v s).decoderPart := by
  obtain ⟨-, -, -, -, hacc, -⟩ := decoderPart_eq_iff.mp h
  have hjoin : joined v s' = joined v s := by rw [joined, joined, hacc]
  rw [groupEmitted, groupEmitted, hjoin]
  exact setGroup_decoderPart 0 0 (emit_decoderPart 8 (setGroup_decoderPart _ 0 h))

theorem pushSymbol_decoderPart (v : BitVec 5) (h : s'.decoderPart = s.decoderPart) :
    (pushSymbol v s').decoderPart = (pushSymbol v s).decoderPart := by
  obtain ⟨-, hn, -, -, hacc, -⟩ := decoderPart_eq_iff.mp h
  by_cases h7 : s.nsym.toNat = 7
  · have hg := groupEmitted_decoderPart v h
    obtain ⟨-, -, hklen, hkmax, -, -⟩ := decoderPart_eq_iff.mp hg
    rw [pushSymbol_full v h7, pushSymbol_full v (by rw [hn, h7]), hklen, hkmax]
    split
    · exact setB32st_decoderPart _ hg
    · exact hg
  · have hlt : s.nsym.toNat < 7 := by omega
    rw [pushSymbol_partial v hlt, pushSymbol_partial v (s := s') (hn ▸ hlt), joined, joined, hn, hacc]
    exact setGroup_decoderPart _ _ h

theorem endInput_decoderPart (h : s'.decoderPart = s.decoderPart) :
    (endInput s').decoderPart = (endInput s).decoderPart := by
  obtain ⟨hst, -⟩ := decoderPart_eq_iff.mp h
  rw [endInput, endInput, hst]
  split
  · exact setB32st_decoderPart _ (flush_decoderPart h)
  · exact setB32st_decoderPart _ h

end

/-- A decoder command reads the decoder's elements only: from states that agree on them it leaves the same ones and the
same ERR (41_base32.md R120). -/
theorem exec_decoder_congr {i : Instr} {s s' t : State} (hi : IsDecoderCommand i) (h : exec i s = .next t)
    (hs : s'.decoderPart = s.decoderPart) :
    ∃ t', exec i s' = .next t' ∧ t'.decoderPart = t.decoderPart ∧ t'.err = t.err := by
  obtain ⟨hst, -⟩ := decoderPart_eq_iff.mp hs
  obtain ⟨m, rfl⟩ | ⟨c, rfl⟩ | rfl := hi
  · by_cases hm : m ≤ 64
    · cases (exec_b32Init_of_le s hm).symm.trans h
      exact ⟨_, exec_b32Init_of_le s' hm, rfl, rfl⟩
    · have hgt : 64 < m := by omega
      cases (exec_b32Init_of_gt s hgt).symm.trans h
      exact ⟨_, exec_b32Init_of_gt s' hgt, hs, rfl⟩
  · rcases execB32Push_cases c s with ⟨hx, e⟩ | ⟨hx, e⟩ | ⟨hx, hc, e⟩ | ⟨v, hx, hc, e⟩ <;>
      cases e.symm.trans h <;> rw [← hst] at hx
    · exact ⟨s'.setErr .seq, by simp [exec, execB32Push, hx], hs, rfl⟩
    · exact ⟨_, exec_b32Push_ended hx c, hs, rfl⟩
    · exact ⟨_, exec_b32Push_terminator hx hc, (setB32st_decoderPart .stopped (flush_decoderPart hs) :), rfl⟩
    · exact ⟨_, exec_b32Push_symbol hx hc, pushSymbol_decoderPart v hs, rfl⟩
  · rcases execB32Finish_cases s with ⟨hx, e⟩ | ⟨hx, e⟩ <;> cases e.symm.trans h <;> rw [← hst] at hx
    · exact ⟨s'.setErr .seq, if_pos hx, hs, rfl⟩
    · have hend := endInput_decoderPart hs
      obtain ⟨-, -, hklen, -⟩ := decoderPart_eq_iff.mp hend
      exact ⟨_, exec_b32Finish_of_not_idle hx, hend, by rw [State.setErr_err, hklen]; rfl⟩

/-- TRUNC carries ACC, NSYM and KMAX through and does the same whatever they are (41_base32.md R120). -/
theorem execTrunc_decoder_independent {d : Nat} {s t : State} (h : execTrunc d s = .next t) (acc : BitVec 40)
    (nsym : BitVec 3) (kmax : BitVec 7) :
    execTrunc d ((s.setGroup acc nsym).setKmax kmax) = .next ((t.setGroup acc nsym).setKmax kmax) := by
  unfold execTrunc at h ⊢
  rw [State.setKmax_merr, State.setKmax_dv, State.setGroup_merr, State.setGroup_dv]
  split at h
  · next hd => cases h; rw [if_pos hd]; rfl
  · next hd =>
    rw [if_neg hd]
    cases hm : s.merr <;> cases hv : s.dv <;> rw [hm, hv] at h <;> cases h <;> rfl

end Sys2Proof.Machine
end

section
/-! SUPPORT. The moves of B32ST (41_base32.md R100): every command makes one of the table's, and no other step makes any. -/

namespace Sys2Proof.Machine

/-! ### The moves of B32ST -/

/-- The part of the decoder's invariants that its moves rest on: ACTIVE has space for a byte (41_base32.md R100). -/
def ActiveHasSpace (s : State) : Prop := s.b32st = .active → s.klen.toNat < s.kmax.toNat

/-- The moves of B32ST from `x` to `y` that a command may make, where KEY is `full` after it or not: the table of
41_base32.md R100. -/
inductive Moves (i : Instr) (x y : B32State) (full : Prop) : Prop
  | stays (hy : y = x)
  | resets (hi : i = .srst) (hy : y = .idle)
  | starts (m : Nat) (hi : i = .b32Init m) (hm : m ≤ 64) (hy : y = .active ∨ y = .stopped)
  | stops (c : Byte) (hi : i = .b32Push c) (hx : x = .active) (hy : y = .stopped) (hstop : sym c = none ∨ full)
  | finishes (hi : i = .b32Finish) (hx : x = .active ∨ x = .stopped) (hy : y = .finished)

/-- A pushed symbol stops the decoder exactly where KEY is then full (41_base32.md R107, R114). -/
theorem pushSymbol_b32st (v : BitVec 5) {s : State} (ha : s.b32st = .active) (hlt : s.klen.toNat < s.kmax.toNat) :
    (pushSymbol v s).b32st = (if (pushSymbol v s).klen = (pushSymbol v s).kmax then .stopped else .active) ∧
      (pushSymbol v s).klen.toNat ≤ (pushSymbol v s).kmax.toNat := by
  by_cases h7 : s.nsym.toNat = 7
  · have hklen := groupEmitted_klen v (Nat.le_of_lt hlt)
    rw [pushSymbol_full_frame v h7, ha]
    refine ⟨?_, ?_⟩
    · simp [BitVec.toNat_inj]
    · simp only [State.setB32st_klen, State.setB32st_kmax, State.setGroup_klen, State.setGroup_kmax,
        State.setKey_klen, State.setKey_kmax]
      omega
  · rw [pushSymbol_partial v (by omega)]
    refine ⟨?_, Nat.le_of_lt hlt⟩
    have hne : s.klen ≠ s.kmax := fun h => absurd (congrArg BitVec.toNat h) (Nat.ne_of_lt hlt)
    simp [ha, hne]

theorem decodeStarted_b32st (m : Nat) (s : State) :
    (decodeStarted m s).b32st = if m = 0 then .stopped else .active := rfl

theorem decodeStarted_hasSpace {m : Nat} (hm : m ≤ 64) (s : State) : ActiveHasSpace (decodeStarted m s) := by
  intro ha
  have hpos : m ≠ 0 := fun h0 => by
    rw [decodeStarted_b32st, if_pos h0] at ha
    cases ha
  have hkmax : (decodeStarted m s).kmax.toNat = m % 2 ^ 7 := BitVec.toNat_ofNat m 7
  have hklen : (decodeStarted m s).klen.toNat = 0 := rfl
  omega

/-- A character in ACTIVE: it stops the decoder where it is outside the alphabet or KEY is then full, and else leaves
space (41_base32.md R100, R107, R108). -/
theorem exec_b32Push_active {s : State} (c : Byte) (ha : s.b32st = .active) (hspace : ActiveHasSpace s) :
    ∃ t, exec (.b32Push c) s = .next t ∧
      t.b32st = (if sym c = none ∨ t.klen = t.kmax then .stopped else .active) ∧ ActiveHasSpace t := by
  cases hc : sym c with
  | none =>
    refine ⟨_, exec_b32Push_terminator ha hc, by simp, fun h => ?_⟩
    cases h
  | some v =>
    obtain ⟨hst, hle⟩ := pushSymbol_b32st v ha (hspace ha)
    refine ⟨_, exec_b32Push_symbol ha hc, by simpa using hst, fun h => ?_⟩
    rw [State.setErr_b32st, hst] at h
    split at h
    · cases h
    · next hne => exact Nat.lt_of_le_of_ne hle (mt BitVec.eq_of_toNat_eq hne)

/-- Every command moves B32ST by the table only, and keeps ACTIVE's space (41_base32.md R100). -/
theorem exec_moves {i : Instr} {s t : State} (hspace : ActiveHasSpace s) (h : exec i s = .next t) :
    Moves i s.b32st t.b32st (t.klen = t.kmax) ∧ ActiveHasSpace t := by
  cases i with
  | nop => cases h; exact ⟨.stays rfl, hspace⟩
  | b32Init m =>
    rcases execB32Init_cases m s with ⟨-, e⟩ | ⟨hm, e⟩ <;> cases e.symm.trans h
    · exact ⟨.stays rfl, hspace⟩
    · refine ⟨.starts m rfl hm ?_, decodeStarted_hasSpace hm s⟩
      rw [decodeStarted_b32st]
      split
      · exact .inr rfl
      · exact .inl rfl
  | b32Push c =>
    by_cases ha : s.b32st = .active
    · obtain ⟨u, e, hst, hu⟩ := exec_b32Push_active c ha hspace
      cases e.symm.trans h
      refine ⟨?_, hu⟩
      split at hst
      · next hstop => exact .stops c rfl ha hst hstop
      · exact .stays (hst.trans ha.symm)
    · rcases execB32Push_cases c s with ⟨-, e⟩ | ⟨-, e⟩ | ⟨hx, -, -⟩ | ⟨_, hx, -, -⟩
      · cases e.symm.trans h
        exact ⟨.stays rfl, hspace⟩
      · cases e.symm.trans h
        exact ⟨.stays rfl, hspace⟩
      · exact absurd hx ha
      · exact absurd hx ha
  | b32Finish =>
    rcases execB32Finish_cases s with ⟨-, e⟩ | ⟨hne, e⟩ <;> cases e.symm.trans h
    · exact ⟨.stays rfl, hspace⟩
    · refine ⟨?_, fun hactive => ?_⟩
      · cases hst : s.b32st with
        | idle => exact absurd hst hne
        | active => exact .finishes rfl (.inl rfl) rfl
        | stopped => exact .finishes rfl (.inr rfl) rfl
        | finished => exact .stays rfl
      · cases hactive
  | ctrEnc => cases h; exact ⟨.stays rfl, hspace⟩
  | trunc d =>
    rcases execTrunc_cases d s with ⟨_, -, e⟩ | ⟨-, -, -, -, e⟩ <;>
      (cases e.symm.trans h; exact ⟨.stays rfl, hspace⟩)
  | srst =>
    cases h
    refine ⟨.resets rfl rfl, fun hactive => ?_⟩
    cases hactive

/-- A step leaves B32ST, resets, or runs a command that moves it, and keeps ACTIVE's space (41_base32.md R100). -/
theorem step_moves {s t : State} (hspace : ActiveHasSpace s) (h : step s = .next t) :
    ActiveHasSpace t ∧ (t.b32st = s.b32st ∨ (t.b32st = .idle ∧ NextResets s) ∨
      ∃ i, NextRuns s i ∧ Moves i s.b32st t.b32st (t.klen = t.kmax)) := by
  rcases step_cases h with ⟨-, rfl⟩ | ⟨rest, hi, rfl⟩ | ⟨_, _, -, -, -, rfl⟩ | ⟨_, off, v, rest, -, -, -, -, rfl⟩ |
    ⟨m, w, rest, u, hi, hu, rfl⟩
  · exact ⟨hspace, .inl rfl⟩
  · refine ⟨fun hactive => ?_, .inr (.inl ⟨rfl, .inr ⟨rest, hi⟩⟩)⟩
    cases hactive
  · exact ⟨hspace, .inl rfl⟩
  · obtain ⟨_, _, _, _, hf⟩ := writeWord_frame off v (s.setInputs rest)
    rw [hf]
    exact ⟨hspace, .inl rfl⟩
  · rcases runWord_cases w (s.setInputs rest) with ⟨i, hd, e⟩ | ⟨_, -, e⟩
    · obtain ⟨hmove, hspace'⟩ := exec_moves (s := s.setInputs rest) hspace (e.symm.trans hu)
      exact ⟨hspace', .inr (.inr ⟨i, ⟨m, w, rest, hi, hd⟩, hmove⟩)⟩
    · cases e.symm.trans hu
      exact ⟨hspace, .inl rfl⟩

end Sys2Proof.Machine
end

section
/-! SUPPORT. The obligations about the base32 decoder of 41_base32.md: its states (R100), the alphabet (R101, R102),
B32_INIT (R104, R119), the end of input (R108, R110), the groups (R112, R113, R118) and its isolation (R120). -/

namespace Sys2Proof.Machine

/-- Settles O39: the joined accumulator is the eight symbols, and its five bytes are those of the rule. -/
theorem eighthSymbolEmitsTheGroup : Obligations.EighthSymbolEmitsTheGroup := by
  unfold Obligations.EighthSymbolEmitsTheGroup
  intro s c s0 s1 s2 s3 s4 s5 s6 s7 hcap ha hn hc hacc
  obtain ⟨hle, hmax⟩ := hcap
  have hklen := groupEmitted_klen s7 hle
  refine ⟨(groupEmitted s7 s).key, (groupEmitted s7 s).klen, ?_, hklen, fun i => ?_⟩
  · rw [exec_b32Push_symbol ha hc, pushSymbol_full_frame s7 (by rw [hn]; rfl), ha]
    -- `rfl` compares the updates of `s` field by field, and must not evaluate the emission
    generalize groupEmitted s7 s = t
    rfl
  · rw [groupEmitted_key s7 hle hmax, joined_eq_groupBits s0 s1 s2 s3 s4 s5 s6 s7 hacc]
    split
    · next hi =>
      obtain ⟨h0, h1, h2, h3, h4⟩ := groupBits_bytes s0 s1 s2 s3 s4 s5 s6 s7
      have hj : i - s.klen.toNat < 5 := by omega
      generalize i - s.klen.toNat = j at hj
      match j, hj with
      | 0, _ => exact h0
      | 1, _ => exact h1
      | 2, _ => exact h2
      | 3, _ => exact h3
      | 4, _ => exact h4
    · rfl

/-- Settles O40: the flush of a partial group appends its whole bytes, and STOPPED ignores every later character. -/
theorem nonAlphabetCharacterTerminates : Obligations.NonAlphabetCharacterTerminates := by
  unfold Obligations.NonAlphabetCharacterTerminates
  intro s c hcap ha hc
  refine ⟨(flush s).key, (flush s).klen, _, rfl, ?_, flush_appended hcap,
    runInstrs_pushes_ended (.inl rfl) rfl⟩
  rw [exec_b32Push_terminator ha hc, flush_frame s]
  rfl

/-- Settles O42: fewer than two symbols, or no capacity, give no byte up to the end of input. -/
theorem emptyDecodesAreReported : Obligations.EmptyDecodesAreReported := by
  unfold Obligations.EmptyDecodesAreReported
  refine ⟨rfl, fun s t hne h hk => exec_b32Finish_klen_zero hne h hk, fun s m cs hm hshort => ?_⟩
  obtain ⟨u, hrun, hu⟩ := runInstrs_pushes_noByte (decodeStarted_noByte s hshort)
  have hne : u.b32st ≠ .idle := by
    obtain ⟨-, h | ⟨h, -⟩⟩ := hu <;> rw [h] <;> decide
  have hfinish := exec_b32Finish_of_not_idle hne
  have hk := endInput_klen_of_noByte hu
  refine ⟨_, ?_, ?_, exec_b32Finish_klen_zero hne hfinish hk⟩
  · rw [runInstrs_cons (exec_b32Init_of_le s hm), runInstrs_append hrun, runInstrs_cons hfinish, runInstrs]
  · exact hk

/-- Settles O43: a flush with space appends every whole byte of the group's number, by the table. -/
theorem partialGroupYieldsWholeBytes : Obligations.PartialGroupYieldsWholeBytes := by
  unfold Obligations.PartialGroupYieldsWholeBytes
  intro s i vs hcap ha hi hn hacc hspace
  obtain ⟨hbytes, hbits⟩ := groupTable (k := vs.length) (by omega)
  rw [hbytes] at hspace
  rw [hbytes, hbits]
  obtain ⟨t, ht, hkey, hklen⟩ := exec_flushes ha hi
  obtain ⟨hlen, hget⟩ := flush_appended hcap
  rw [hn, Nat.min_eq_left hspace] at hlen
  rw [hn, hacc] at hget
  refine ⟨(Nat.div_add_mod _ 8).symm, t, ht, by rw [hklen, hlen], fun j hlo hhi => ?_, fun j hj => ?_⟩
  · rw [hklen] at hhi
    rw [hkey, hget, if_pos ⟨hlo, hhi⟩]
  · apply BitVec.eq_of_toNat_eq
    rw [hkey, hget, if_neg (by omega)]

/-- Settles O44: a flush does not read the bits it discards, and both commands that flush reach the rest of the state
through it alone. -/
theorem discardedBitsAreNotChecked : Obligations.DiscardedBitsAreNotChecked := by
  unfold Obligations.DiscardedBitsAreNotChecked
  intro s acc ha h
  have hflush : flush { s with acc := acc } = flush s := flush_setAcc h
  refine ⟨⟨_, exec_b32Finish_of_not_idle (by rw [ha]; decide), ?_⟩,
    fun c hc => ⟨_, exec_b32Push_terminator ha hc, ?_⟩⟩
  · rw [exec_b32Finish_of_not_idle (s := { s with acc := acc }) (by rw [ha]; decide), endInput_of_active ha,
      endInput_of_active (s := { s with acc := acc }) ha, hflush]
  · rw [exec_b32Push_terminator (s := { s with acc := acc }) ha hc, hflush]

/-- Settles O46: every command moves B32ST by the table, and no other step moves it. -/
theorem decoderStateTransitions : Obligations.DecoderStateTransitions := by
  unfold Obligations.DecoderStateTransitions
  refine ⟨⟨rfl, rfl, rfl, rfl⟩, fun s m hm => ⟨_, exec_b32Init_of_le s hm, decodeStarted_b32st m s⟩,
    fun s c hinv ha => ?_, fun s hne => ⟨_, exec_b32Finish_of_not_idle hne, rfl⟩, fun s => ⟨_, rfl, rfl⟩,
    fun s t hinv h => ?_⟩
  · obtain ⟨t, ht, hst, -⟩ := exec_b32Push_active c ha hinv.active
    exact ⟨t, ht, hst⟩
  · obtain ⟨hspace, hstay | hreset | ⟨i, hrun, hmove⟩⟩ := step_moves hinv.active h
    · exact ⟨hspace, .inl hstay⟩
    · exact ⟨hspace, .inr (.inl hreset)⟩
    · refine ⟨hspace, ?_⟩
      cases hmove with
      | stays hy => exact .inl hy
      | resets hi hy => exact .inr (.inl ⟨hy, .inl (hi ▸ hrun)⟩)
      | starts m hi hm hy => exact .inr (.inr (.inl ⟨hy, m, hm, hi ▸ hrun⟩))
      | stops c hi hx hy hstop => exact .inr (.inr (.inr (.inl ⟨hx, hy, c, hi ▸ hrun, hstop⟩)))
      | finishes hi hx hy => exact .inr (.inr (.inr (.inr ⟨hx, hy, hi ▸ hrun⟩)))

/-- Settles O48: by the frame of the decoder's commands, and because they and the others read only their own elements. -/
theorem decoderIsIsolated : Obligations.DecoderIsIsolated := by
  unfold Obligations.DecoderIsIsolated
  refine ⟨fun i s t hi h => ⟨?_, fun s' hs => exec_decoder_congr hi h hs⟩, fun i s t acc nsym kmax hi h => ?_⟩
  · rw [exec_decoder_frame hi h]
    exact ⟨rfl, rfl, rfl, rfl⟩
  · obtain rfl | ⟨d, rfl⟩ | rfl := hi
    · cases h; rfl
    · exact execTrunc_decoder_independent h acc nsym kmax
    · cases h; rfl

/-- Settles O35: `sym` and the alphabet's positions are each other's inverse. -/
theorem symbolIndexIsAlphabetPosition : Obligations.SymbolIndexIsAlphabetPosition := by
  unfold Obligations.SymbolIndexIsAlphabetPosition
  refine ⟨rfl, fun c v => sym_eq_some_iff, fun c => sym_eq_none_iff, fun c hc => sym_eq_none_iff.mpr ?_⟩
  rcases hc with hc | rfl | rfl | rfl | rfl | rfl
  · omega
  all_goals decide

/-- Settles O36: the two outcomes of B32_INIT. -/
theorem initStartsADecode : Obligations.InitStartsADecode := by
  unfold Obligations.InitStartsADecode
  refine ⟨fun s m hm => ⟨Vector.replicate _ 0, exec_b32Init_of_le s hm, fun i => by simp, ?_⟩, rfl,
    fun s m hm => exec_b32Init_of_gt s hm⟩
  rw [BitVec.toNat_ofNat, Nat.mod_eq_of_lt (by omega)]

end Sys2Proof.Machine
end

section
/-! SUPPORT. The counter encoder: what CTR_ENC answers, and its bytes by the bit numbers of COUNTER (42_counter.md R130,
R131). -/

namespace Sys2Proof.Machine

/-- CTR_ENC has no error case (42_counter.md R130). -/
theorem exec_ctrEnc (s : State) :
    exec .ctrEnc s = .next ((s.setCb (counterBytes s.counter)).setErr .ok) := rfl

/-- Settles O49: CTR_ENC sets CB to the bytes of COUNTER, and byte `i` begins at bit `8 * (7 - i) = 56 - 8 * i`. -/
theorem counterBytesAreBigEndian : Obligations.CounterBytesAreBigEndian := by
  unfold Obligations.CounterBytesAreBigEndian
  refine fun s => ⟨counterBytes s.counter, exec_ctrEnc s, fun i hi => ?_⟩
  have hbit : 8 * (7 - i) = 56 - 8 * i := Nat.mul_sub 8 7 i
  rw [byteAt_counterBytes _ hi, hbit]

end Sys2Proof.Machine
end

section
/-! SUPPORT. What TRUNC answers for each outcome of its checks, which are the digit count, MERR and DV in that order,
and the token that it leaves where they pass (43_truncate.md R142 to R150). -/

namespace Sys2Proof.Machine

/-! ### One equation per outcome of the checks -/

section
variable {s : State} {d : Nat}

theorem exec_trunc_of_illegal_digits (hd : d < 1 ∨ 10 < d) :
    exec (.trunc d) s = .next ((s.setTvalid false).setErr .badDigits) := if_pos hd

/-- A legal digit count leaves the checks of MERR and DV. -/
theorem exec_trunc_of_legal_digits (h1 : 1 ≤ d) (h10 : d ≤ 10) :
    exec (.trunc d) s =
      if s.merr then .next (truncFails .macFail s)
      else if !s.dv then .next (truncFails .noDigest s)
      else .next (finish .ok (renderToken d s)) :=
  if_neg (not_or.mpr ⟨Nat.not_lt.mpr h1, Nat.not_lt.mpr h10⟩)

theorem exec_trunc_of_merr (h1 : 1 ≤ d) (h10 : d ≤ 10) (hm : s.merr = true) :
    exec (.trunc d) s = .next ((s.setTvalid false).setErr .macFail) := by
  rw [exec_trunc_of_legal_digits h1 h10, if_pos hm, truncFails, finish]

theorem exec_trunc_of_no_digest (h1 : 1 ≤ d) (h10 : d ≤ 10) (hm : s.merr = false) (hv : s.dv = false) :
    exec (.trunc d) s = .next ((s.setTvalid false).setErr .noDigest) := by
  simp [exec_trunc_of_legal_digits h1 h10, hm, hv, truncFails, finish]

theorem exec_trunc_of_digest (h1 : 1 ≤ d) (h10 : d ≤ 10) (hm : s.merr = false) (hv : s.dv = true) :
    exec (.trunc d) s = .next ((renderToken d s).setErr .ok) := by
  simp [exec_trunc_of_legal_digits h1 h10, hm, hv, finish]

end

/-- Settles O52, by the equation of each failing check. -/
theorem truncChecksInOrder : Obligations.TruncChecksInOrder := by
  unfold Obligations.TruncChecksInOrder
  exact fun s d => ⟨exec_trunc_of_illegal_digits, exec_trunc_of_merr, exec_trunc_of_no_digest⟩

/-! ### A TRUNC whose checks pass -/

theorem renderToken_token (d : Nat) (s : State) :
    (renderToken d s).token = tokenBytes (tokenValue (truncRaw s.digest) d) d := rfl

/-- Settles O51: the state is `renderToken`'s, and each value and byte it holds has its own equation. -/
theorem truncRendersTheToken : Obligations.TruncRendersTheToken := by
  unfold Obligations.TruncRendersTheToken
  intro s d h1 h10 hm hv off raw tv
  have hraw : (truncRaw s.digest).toNat = raw := truncRaw_toNat s.digest
  have htv : tokenValue (truncRaw s.digest) d = tv := congrArg (· % 10 ^ d) hraw
  refine ⟨hraw ▸ (truncRaw s.digest).isLt, _, _, _, _, _, exec_trunc_of_digest h1 h10 hm hv,
    truncOffset_toNat s.digest, hraw, (tokenValue_tval _ d).trans htv, ?_, fun i hi => ?_, fun i hi => ?_⟩
  · exact Nat.mod_eq_of_lt (Nat.lt_of_le_of_lt h10 (by decide))
  · rw [renderToken_token, byteAt_tokenBytes, if_pos ⟨Nat.lt_of_lt_of_le hi h10, hi⟩, tokenDigit_toNat, htv]
  · rw [renderToken_token, byteAt_tokenBytes, if_neg fun h => Nat.not_lt.mpr hi h.2]

/-- A TRUNC that leaves OK clears DV and keeps DIGEST, and MERR is 0 (43_truncate.md R142, R144). -/
theorem exec_trunc_ok_consumes {s t : State} {d : Nat} (h : exec (.trunc d) s = .next t) (hok : t.err = .ok) :
    t.dv = false ∧ t.digest = s.digest ∧ t.merr = false := by
  rcases execTrunc_cases d s with ⟨c, hc, e⟩ | ⟨-, -, hm, -, e⟩ <;> cases e.symm.trans h
  · exact absurd hok hc
  · exact ⟨rfl, rfl, hm⟩

/-- Settles O55: what the first TRUNC leaves is what the check of DV refuses. -/
theorem truncConsumesTheDigest : Obligations.TruncConsumesTheDigest := by
  unfold Obligations.TruncConsumesTheDigest
  intro s t d d' h hok h1 h10
  obtain ⟨hdv, hdigest, hmerr⟩ := exec_trunc_ok_consumes h hok
  exact ⟨hdv, hdigest, exec_trunc_of_no_digest h1 h10 hmerr hdv⟩

end Sys2Proof.Machine
end

section
/-! SUPPORT. The control commands: what NOP and SRST answer, and that SRST and hardware reset leave the same elements
(44_control.md R160 to R162). -/

namespace Sys2Proof.Machine

/-! ### SRST and hardware reset -/

/-- SRST has no error case (44_control.md R161). -/
theorem exec_srst (s : State) : exec .srst s = .next (resetElements s) := rfl

/-- A hardware reset is taken from the inputs and answered by the reset state (70_reset_and_hazards.md R191). -/
theorem step_hardwareReset {s : State} {rest : List Input} (hi : s.inputs = .hardwareReset :: rest) :
    step s = .next (hardwareReset (s.setInputs rest)) := by
  rw [step, takeInput, hi]

/-- The elements after SRST are the reset values, whatever the state before (70_reset_and_hazards.md R190). -/
@[simp] theorem elements_resetElements (s : State) : (resetElements s).elements = State.reset.elements := by
  rw [resetElements, elements_setResponse, elements_setInputs]

/-- The elements after a hardware reset are the same reset values. -/
@[simp] theorem elements_hardwareReset (s : State) : (hardwareReset s).elements = State.reset.elements := by
  rw [hardwareReset, elements_setResponse, elements_resetElements]

/-- Settles O16: both resets leave the elements of `State.reset`. -/
theorem srstIsAReset : Obligations.SrstIsAReset := by
  unfold Obligations.SrstIsAReset
  refine ⟨exec_srst, fun s s' t t' rest hsrst hi hstep => ?_⟩
  cases (exec_srst s).symm.trans hsrst
  cases (step_hardwareReset hi).symm.trans hstep
  rw [elements_resetElements, elements_hardwareReset]

/-! ### NOP -/

/-- NOP has no error case and leaves OK in ERR (44_control.md R160). -/
theorem exec_nop (s : State) : exec .nop s = .next (s.setErr .ok) := rfl

/-- Settles O57: NOP's row of the opcode map fixes the whole word, and NOP's OP with another ARG is the fourth way of
being an illegal word. -/
theorem nopOnlyClearsErr : Obligations.NopOnlyClearsErr := by
  unfold Obligations.NopOnlyClearsErr
  refine ⟨rfl, fun w => decode_eq_ok_iff_fullMask rfl rfl, exec_nop, fun w s _ hop harg => ?_⟩
  have hop0 : (w.extractLsb' 0 8).toNat = 0x00 := by rw [hop]; rfl
  exact runWord_of_illegalWord (.inr (.inr (.inr ⟨.inl hop0, harg⟩))) s

end Sys2Proof.Machine
end

section
/-! SUPPORT. Result codes: every command word completes and leaves in STATUS[3:0] the number of the first check of
60_exceptions.md R175 that applies. -/

namespace Sys2Proof.Machine

/-! ### The code in STATUS -/

theorem statusWord_err (s : State) : (statusWord s).extractLsb' 0 4 = s.err.bits := by
  ext k hk
  simp only [statusWord]
  grind

/-! ### Every command word completes -/

/-- No command stops or is refused: each case of its meaning answers a next state (60_exceptions.md R172). -/
theorem exec_completes (i : Instr) (s : State) : ∃ t, exec i s = .next t := by
  cases i with
  | nop => exact ⟨_, exec_nop s⟩
  | b32Init m => obtain ⟨-, e⟩ | ⟨-, e⟩ := execB32Init_cases m s <;> exact ⟨_, e⟩
  | b32Push c =>
    obtain ⟨-, e⟩ | ⟨-, e⟩ | ⟨-, -, e⟩ | ⟨v, -, -, e⟩ := execB32Push_cases c s <;> exact ⟨_, e⟩
  | b32Finish => obtain ⟨-, e⟩ | ⟨-, e⟩ := execB32Finish_cases s <;> exact ⟨_, e⟩
  | ctrEnc => exact ⟨_, exec_ctrEnc s⟩
  | trunc d => obtain ⟨c, -, e⟩ | ⟨-, -, -, -, e⟩ := execTrunc_cases d s <;> exact ⟨_, e⟩
  | srst => exact ⟨_, exec_srst s⟩

theorem runWord_of_decode {w : Word} {i : Instr} (h : decode w = .ok i) (s : State) : runWord w s = exec i s := by
  rw [runWord, h]

theorem runWord_completes (w : Word) (s : State) : ∃ t, runWord w s = .next t := by
  obtain ⟨i, -, e⟩ | ⟨_, -, e⟩ := runWord_cases w s
  · rw [e]
    exact exec_completes i s
  · exact ⟨_, e⟩

/-! ### The code that each command leaves -/

section
variable {s t : State}

theorem exec_b32Init_err {m : Nat} (h : exec (.b32Init m) s = .next t) :
    t.err = if 64 < m then .badMaxlen else .ok := by
  obtain ⟨hm, e⟩ | ⟨hm, e⟩ := execB32Init_cases m s <;> cases e.symm.trans h
  · exact (if_pos hm).symm
  · exact (if_neg (Nat.not_lt.mpr hm)).symm

theorem exec_b32Push_err {c : Byte} (h : exec (.b32Push c) s = .next t) :
    t.err = if s.b32st = .idle then .seq else .ok := by
  obtain ⟨hs, e⟩ | ⟨hs | hs, e⟩ | ⟨hs, -, e⟩ | ⟨v, hs, -, e⟩ := execB32Push_cases c s <;>
    cases e.symm.trans h <;> rw [hs] <;> rfl

/-- EMPTY_KEY is decided by the KLEN that the flush leaves (60_exceptions.md R175). -/
theorem exec_b32Finish_err (h : exec .b32Finish s = .next t) :
    t.err = if s.b32st = .idle then .seq else if t.klen = 0 then .emptyKey else .ok := by
  obtain ⟨hs, e⟩ | ⟨hs, e⟩ := execB32Finish_cases s <;> cases e.symm.trans h
  · exact (if_pos hs).symm
  · exact (if_neg hs).symm

/-- The digit count is checked first, then MERR, then DV (43_truncate.md R144, 60_exceptions.md R175). -/
theorem exec_trunc_err {d : Nat} (h : exec (.trunc d) s = .next t) :
    t.err = if d < 1 ∨ 10 < d then .badDigits else if s.merr = true then .macFail
      else if s.dv = false then .noDigest else .ok := by
  by_cases hd : d < 1 ∨ 10 < d
  · cases (exec_trunc_of_illegal_digits hd).symm.trans h
    exact (if_pos hd).symm
  · have h1 : 1 ≤ d := by omega
    have h10 : d ≤ 10 := by omega
    rw [if_neg hd]
    cases hm : s.merr
    · cases hv : s.dv
      · cases (exec_trunc_of_no_digest h1 h10 hm hv).symm.trans h
        rfl
      · cases (exec_trunc_of_digest h1 h10 hm hv).symm.trans h
        rfl
    · cases (exec_trunc_of_merr h1 h10 hm).symm.trans h
      rfl

/-- NOP, CTR_ENC and SRST have no error case: SRST's OK is ERR's reset value (44_control.md R161). -/
theorem exec_err_of_no_check {i : Instr} (hi : i = .nop ∨ i = .ctrEnc ∨ i = .srst) (h : exec i s = .next t) :
    t.err = .ok := by
  obtain rfl | rfl | rfl := hi <;> cases h <;> rfl

end

/-- Settles O58: STATUS[3:0] is the number of ERR, and each command's checks fix ERR. -/
theorem resultCodeOfEveryCommandWord : Obligations.ResultCodeOfEveryCommandWord := by
  unfold Obligations.ResultCodeOfEveryCommandWord
  intro w s
  obtain ⟨t, ht⟩ := runWord_completes w s
  have hexec {i : Instr} (hd : decode w = .ok i) : exec i s = .next t := (runWord_of_decode hd s).symm.trans ht
  have hcode : (readWord 0x004 t).extractLsb' 0 4 = t.err.bits := statusWord_err t
  refine ⟨t, ht, ?_⟩
  rw [hcode]
  refine ⟨fun hw => ?_, fun hd => ?_, fun m hd => ?_, fun c hd => ?_, fun hd => ?_, fun d hd => ?_⟩
  · cases (runWord_of_illegalWord hw s).symm.trans ht
    rfl
  · have herr : t.err = .ok := by
      obtain hd | hd | hd := hd <;> exact exec_err_of_no_check (by simp) (hexec hd)
    rw [herr]
    rfl
  · rw [exec_b32Init_err (hexec hd)]
    split_ifs <;> rfl
  · rw [exec_b32Push_err (hexec hd)]
    split_ifs <;> rfl
  · have hklen : t.klen = 0 ↔ t.klen.toNat = 0 := BitVec.toNat_inj.symm
    rw [exec_b32Finish_err (hexec hd)]
    simp only [hklen]
    split_ifs <;> rfl
  · rw [exec_trunc_err (hexec hd)]
    split_ifs <;> rfl

end Sys2Proof.Machine
end

section
/-! SUPPORT. The reset table of 70_reset_and_hazards.md R190: `State.reset` meets it, and it speaks of the elements only,
which both resets leave as `State.reset` has them. -/

namespace Sys2Proof.Machine

open Sys2Proof.Claims

/-- A bus word of a buffer at reset is 0, past the buffer's end too (20_memory.md R55). -/
theorem laneWord_zeros (n i : Nat) : laneWord (Vector.replicate n 0) i = 0 :=
  laneWord_eq_zero fun j _ => by rw [byteAt_replicate, ite_self]

/-- At reset every register and every buffer word reads 0, and so does an offset with nothing behind it. -/
theorem readWord_reset (off : Nat) : readWord off State.reset = 0 := by
  have hstatus : statusWord State.reset = 0 := rfl
  have hb32stat : b32statWord State.reset = 0 := rfl
  have hcntLo : cntLoWord State.reset = 0 := rfl
  have hcntHi : cntHiWord State.reset = 0 := rfl
  have hdstat : dstatWord State.reset = 0 := rfl
  have htres : tresWord State.reset = 0 := rfl
  have htraw : trawWord State.reset = 0 := rfl
  have htval : State.reset.tval = 0 := rfl
  have hcb (i : Nat) : laneWord State.reset.cb i = 0 := laneWord_zeros _ i
  have hkey (i : Nat) : laneWord State.reset.key i = 0 := laneWord_zeros _ i
  have hdigest (i : Nat) : laneWord State.reset.digest i = 0 := laneWord_zeros _ i
  have htoken (i : Nat) : laneWord State.reset.token i = 0 := laneWord_zeros _ i
  rw [readWord, hstatus, hb32stat, hcntLo, hcntHi, hdstat, htres, htraw, htval, hcb, hkey, hdigest, htoken]
  simp only [ite_self]

/-- The table reads no field of the model's own. -/
theorem resetTable_elements (s : State) : ResetTable s.elements ↔ ResetTable s := Iff.rfl

theorem resetTable_reset : ResetTable State.reset := by
  refine ⟨rfl, rfl, rfl, rfl, rfl, rfl, rfl, rfl, rfl, rfl, rfl, rfl, rfl, rfl, rfl, ?key, ?cb, ?digest, ?token, ?words⟩
  case words => exact fun off _ _ _ => readWord_reset off
  all_goals exact fun i _ => (byteAt_replicate _ i).trans (ite_self _)

/-- A state with the elements of `State.reset` meets the table. -/
theorem resetTable_of_elements {t : State} (h : t.elements = State.reset.elements) : ResetTable t := by
  rw [← resetTable_elements, h, resetTable_elements]
  exact resetTable_reset

/-- Settles O15: `State.reset` meets the table, and both resets leave its elements. -/
theorem resetValues : Obligations.ResetValues := by
  unfold Obligations.ResetValues
  refine ⟨resetTable_reset, fun s => ?srst, fun s rest hi => ?hardwareReset⟩
  case srst => exact ⟨_, exec_srst s, resetTable_of_elements (elements_resetElements s)⟩
  case hardwareReset => exact ⟨_, step_hardwareReset hi, resetTable_of_elements (elements_hardwareReset _)⟩

end Sys2Proof.Machine
end

section
/-! SUPPORT. Invariants of every step: what the decoder and the token hold is written by the decoder's commands, TRUNC
and the resets only, so a claim about them rests on these; then the decoder's invariants of 10_state.md R36 and the
token's of R37. -/

namespace Sys2Proof.Machine

/-! ### The units under updates of other elements -/

section
variable (s : State)

@[simp] theorem decoderPart_setErr (c : ResultCode) : (s.setErr c).decoderPart = s.decoderPart := rfl

@[simp] theorem decoderPart_setCb (cb : Vector Byte 8) : (s.setCb cb).decoderPart = s.decoderPart := rfl

@[simp] theorem decoderPart_setInputs (l : List Input) : (s.setInputs l).decoderPart = s.decoderPart := rfl

@[simp] theorem decoderPart_setResponse (r : Option Response) : (s.setResponse r).decoderPart = s.decoderPart := rfl

@[simp] theorem decoderPart_writeWord (off : Nat) (v : Word) : (writeWord off v s).decoderPart = s.decoderPart := by
  obtain ⟨_, _, _, _, hf⟩ := writeWord_frame off v s
  simp [hf, State.decoderPart]

@[simp] theorem tokenPart_setErr (c : ResultCode) : (s.setErr c).tokenPart = s.tokenPart := rfl

@[simp] theorem tokenPart_setCb (cb : Vector Byte 8) : (s.setCb cb).tokenPart = s.tokenPart := rfl

@[simp] theorem tokenPart_setInputs (l : List Input) : (s.setInputs l).tokenPart = s.tokenPart := rfl

@[simp] theorem tokenPart_setResponse (r : Option Response) : (s.setResponse r).tokenPart = s.tokenPart := rfl

@[simp] theorem tokenPart_writeWord (off : Nat) (v : Word) : (writeWord off v s).tokenPart = s.tokenPart := by
  obtain ⟨_, _, _, _, hf⟩ := writeWord_frame off v s
  simp [hf, State.tokenPart]

end

/-! ### Claims that every step keeps -/

/-- What a step keeps: a claim about the decoder's elements and the token's is kept by every step where it holds at
reset and the decoder's commands and TRUNC keep it, since nothing else writes these elements (10_state.md R24, R27). -/
theorem step_keeps {P : State → Prop}
    (hcongr : ∀ {s t}, t.decoderPart = s.decoderPart → t.tokenPart = s.tokenPart → P s → P t)
    (hreset : P State.reset)
    (hdecoder : ∀ {i s t}, IsDecoderCommand i → P s → exec i s = .next t → P t)
    (htrunc : ∀ {d s t}, P s → exec (.trunc d) s = .next t → P t)
    {s t : State} (hs : P s) (h : step s = .next t) : P t := by
  rcases step_cases h with ⟨-, rfl⟩ | ⟨rest, -, rfl⟩ | ⟨_, _, -, -, -, rfl⟩ | ⟨_, _, _, _, -, -, -, -, rfl⟩ |
    ⟨_, w, rest, u, -, hu, rfl⟩
  · exact hs
  · exact hcongr (by rfl) (by rfl) hreset
  · exact hcongr (by simp) (by simp) hs
  · exact hcongr (by simp) (by simp) hs
  · have hs' : P (s.setInputs rest) := hcongr (by simp) (by simp) hs
    refine hcongr (s := u) (by simp) (by simp) ?_
    rcases runWord_cases w (s.setInputs rest) with ⟨i, -, e⟩ | ⟨_, -, e⟩
    · have hexec := e.symm.trans hu
      cases i with
      | b32Init m => exact hdecoder (.inl ⟨m, rfl⟩) hs' hexec
      | b32Push c => exact hdecoder (.inr (.inl ⟨c, rfl⟩)) hs' hexec
      | b32Finish => exact hdecoder (.inr (.inr rfl)) hs' hexec
      | trunc d => exact htrunc hs' hexec
      | nop => cases hexec; exact hcongr (by simp) (by simp) hs
      | ctrEnc => cases hexec; exact hcongr (by simp) (by simp) hs
      | srst => cases hexec; exact hcongr (by rfl) (by rfl) hreset
    · cases e.symm.trans hu
      exact hcongr (by simp) (by simp) hs

/-- TRUNC leaves the decoder's elements (43_truncate.md R154). -/
theorem exec_trunc_decoderPart {d : Nat} {s t : State} (h : exec (.trunc d) s = .next t) :
    t.decoderPart = s.decoderPart := by
  rcases execTrunc_cases d s with ⟨_, -, e⟩ | ⟨-, -, -, -, e⟩ <;> cases e.symm.trans h <;> rfl

/-- The decoder's commands leave the token's elements (41_base32.md R120). -/
theorem exec_decoder_tokenPart {i : Instr} {s t : State} (hi : IsDecoderCommand i) (h : exec i s = .next t) :
    t.tokenPart = s.tokenPart := by
  rw [exec_decoder_frame hi h]
  rfl

/-! ### The key's part of the decoder's invariants -/

/-- The part of `DecoderInv` that speaks of KEY, KLEN and KMAX (10_state.md R30, R36). -/
structure KeyInv (s : State) : Prop where
  klen_le : s.klen.toNat ≤ s.kmax.toNat
  kmax_le : s.kmax.toNat ≤ Config.keyMax
  key_tail : ∀ i, s.klen.toNat ≤ i → byteAt s.key i = 0

theorem DecoderInv.keyInv {s : State} (h : DecoderInv s) : KeyInv s := ⟨h.klen_le, h.kmax_le, h.key_tail⟩

/-- `KeyInv` does not speak of the group. -/
theorem KeyInv.setGroup {s : State} (h : KeyInv s) (acc : BitVec 40) (nsym : BitVec 3) :
    KeyInv (s.setGroup acc nsym) := ⟨h.klen_le, h.kmax_le, h.key_tail⟩

/-- `emit` appends at KLEN, up to KMAX, and writes no byte past the new KLEN (41_base32.md R105). -/
theorem KeyInv.emit {s : State} (h : KeyInv s) (k : Nat) : KeyInv (emit k s) := by
  have hklen := emit_klen k h.klen_le
  have hkmax : (Machine.emit k s).kmax = s.kmax := emitUpTo_kmax k _ s
  refine ⟨by rw [hkmax]; omega, by rw [hkmax]; exact h.kmax_le, fun i hi => ?_⟩
  have hs := h.klen_le
  rw [emit_key k h.klen_le h.kmax_le, if_neg (by omega)]
  exact h.key_tail i (by omega)

theorem KeyInv.flush {s : State} (h : KeyInv s) : KeyInv (flush s) := by
  rw [flush_eq_emit]
  exact (h.emit _).setGroup 0 0

theorem KeyInv.groupEmitted {s : State} (h : KeyInv s) (v : BitVec 5) : KeyInv (groupEmitted v s) :=
  ((h.setGroup _ 0).emit 8).setGroup 0 0

theorem groupEmitted_nsym (v : BitVec 5) (s : State) : (groupEmitted v s).nsym = 0 := rfl

theorem groupEmitted_acc (v : BitVec 5) (s : State) : (groupEmitted v s).acc = 0 := rfl

theorem groupEmitted_b32st (v : BitVec 5) (s : State) : (groupEmitted v s).b32st = s.b32st := by
  rw [groupEmitted_frame, State.setGroup_b32st, State.setKey_b32st]

theorem groupEmitted_kmax (v : BitVec 5) (s : State) : (groupEmitted v s).kmax = s.kmax := by
  rw [groupEmitted_frame, State.setGroup_kmax, State.setKey_kmax]

theorem decodeStarted_keyInv {m : Nat} (hm : m ≤ 64) (s : State) : KeyInv (decodeStarted m s) := by
  have hkmax : (decodeStarted m s).kmax.toNat = m % 2 ^ 7 := BitVec.toNat_ofNat m 7
  exact ⟨Nat.zero_le _, by rw [hkmax, Nat.mod_eq_of_lt (by omega)]; exact hm,
    fun i _ => (byteAt_replicate _ i).trans (ite_self _)⟩

/-! ### The decoder's invariants -/

/-- The decoder's invariants speak of the decoder's elements only. -/
theorem DecoderInv.congr {s t : State} (h : t.decoderPart = s.decoderPart) (hs : DecoderInv s) : DecoderInv t := by
  obtain ⟨hst, hn, hklen, hkmax, hacc, hkey⟩ := decoderPart_eq_iff.mp h
  obtain ⟨klen_le, kmax_le, idle, active, ended, acc_lt, key_tail⟩ := hs
  constructor <;> simpa only [hst, hn, hklen, hkmax, hacc, hkey]

/-- Where the group is empty, the invariants are the key's, and that ACTIVE has space (10_state.md R36). -/
theorem KeyInv.decoderInv {t : State} (hk : KeyInv t) (hn : t.nsym = 0) (hacc : t.acc = 0) (hidle : t.b32st ≠ .idle)
    (hspace : ActiveHasSpace t) : DecoderInv t where
  klen_le := hk.klen_le
  kmax_le := hk.kmax_le
  idle h := absurd h hidle
  active := hspace
  ended _ := ⟨hn, hacc⟩
  acc_lt := by rw [hn, hacc]; decide
  key_tail := hk.key_tail

theorem decoderInv_reset : DecoderInv State.reset where
  klen_le := Nat.le_refl _
  kmax_le := Nat.zero_le _
  idle _ := ⟨rfl, rfl, rfl, rfl⟩
  active h := nomatch h
  ended _ := ⟨rfl, rfl⟩
  acc_lt := by decide
  key_tail i _ := (byteAt_replicate _ i).trans (ite_self _)

theorem decodeStarted_decoderInv {m : Nat} (hm : m ≤ 64) (s : State) : DecoderInv (decodeStarted m s) := by
  refine (decodeStarted_keyInv hm s).decoderInv rfl rfl ?_ (decodeStarted_hasSpace hm s)
  rw [decodeStarted_b32st]
  split <;> decide

/-- A symbol with space in its group adds 5 bits to ACC, and 5 to ACC's bound (10_state.md R35). -/
theorem joined_lt {v : BitVec 5} {s : State} {n : Nat} (h : s.acc.toNat < 2 ^ (5 * n)) :
    (joined v s).toNat < 2 ^ (5 * (n + 1)) := by
  have hv := v.isLt
  have hpow : 2 ^ (5 * (n + 1)) = 2 ^ (5 * n) * 2 ^ 5 := by rw [← Nat.pow_add]; rfl
  rw [joined_toNat, hpow]
  refine Nat.lt_of_le_of_lt (Nat.mod_le _ _) ?_
  omega

/-- A symbol pushed in ACTIVE keeps the decoder's invariants (41_base32.md R107). -/
theorem pushSymbol_decoderInv {s : State} (v : BitVec 5) (hs : DecoderInv s) (ha : s.b32st = .active) :
    DecoderInv ((pushSymbol v s).setErr .ok) := by
  by_cases h7 : s.nsym.toNat = 7
  · have hk := hs.keyInv.groupEmitted v
    have hn := groupEmitted_nsym v s
    have hacc := groupEmitted_acc v s
    have hst := (groupEmitted_b32st v s).trans ha
    rw [pushSymbol_full v h7]
    generalize groupEmitted v s = t at hk hn hacc hst ⊢
    obtain ⟨hle, hmax, htail⟩ := hk
    split
    · exact KeyInv.decoderInv ⟨hle, hmax, htail⟩ hn hacc (fun h => nomatch h) (fun h => nomatch h)
    · next hne =>
      refine KeyInv.decoderInv ⟨hle, hmax, htail⟩ hn hacc ?_ fun _ => ?_
      · rw [State.setErr_b32st, hst]; decide
      · exact Nat.lt_of_le_of_ne hle (mt BitVec.eq_of_toNat_eq hne)
  · have hlt : s.nsym.toNat < 7 := by have := s.nsym.isLt; omega
    have hn : (BitVec.ofNat 3 (s.nsym.toNat + 1)).toNat = s.nsym.toNat + 1 := by
      rw [BitVec.toNat_ofNat, Nat.mod_eq_of_lt (by omega)]
    rw [pushSymbol_partial v hlt]
    refine ⟨hs.klen_le, hs.kmax_le, fun h => ?_, fun _ => hs.active ha, fun h => ?_, ?_, hs.key_tail⟩
    · exact nomatch ha.symm.trans h
    · rcases h with h | h <;> exact nomatch ha.symm.trans h
    · rw [State.setErr_nsym, State.setErr_acc, State.setGroup_acc, State.setGroup_nsym, hn]
      exact joined_lt hs.acc_lt

/-- The decoder's commands keep its invariants. -/
theorem exec_keeps_decoderInv {i : Instr} {s t : State} (hi : IsDecoderCommand i) (hs : DecoderInv s)
    (h : exec i s = .next t) : DecoderInv t := by
  obtain ⟨m, rfl⟩ | ⟨c, rfl⟩ | rfl := hi
  · rcases execB32Init_cases m s with ⟨-, e⟩ | ⟨hm, e⟩ <;> cases e.symm.trans h
    · exact hs.congr (by simp)
    · exact decodeStarted_decoderInv hm s
  · rcases execB32Push_cases c s with ⟨-, e⟩ | ⟨-, e⟩ | ⟨-, -, e⟩ | ⟨v, ha, -, e⟩ <;> cases e.symm.trans h
    · exact hs.congr (by simp)
    · exact hs.congr (by simp)
    · obtain ⟨hle, hmax, htail⟩ := hs.keyInv.flush
      exact KeyInv.decoderInv ⟨hle, hmax, htail⟩ rfl rfl (fun h => nomatch h) (fun h => nomatch h)
    · exact pushSymbol_decoderInv v hs ha
  · rcases execB32Finish_cases s with ⟨-, e⟩ | ⟨hne, e⟩ <;> cases e.symm.trans h
    · exact hs.congr (by simp)
    · by_cases ha : s.b32st = .active
      · obtain ⟨hle, hmax, htail⟩ := hs.keyInv.flush
        rw [endInput_of_active ha]
        exact KeyInv.decoderInv ⟨hle, hmax, htail⟩ rfl rfl (fun h => nomatch h) (fun h => nomatch h)
      · have hended : s.b32st = .stopped ∨ s.b32st = .finished := by
          cases hst : s.b32st <;> simp_all
        obtain ⟨hn, hacc⟩ := hs.ended hended
        rw [endInput_of_not_active ha]
        exact KeyInv.decoderInv ⟨hs.klen_le, hs.kmax_le, hs.key_tail⟩ hn hacc (fun h => nomatch h) (fun h => nomatch h)

/-- Settles O31: the decoder's commands keep the invariants, case by case, and nothing else but a reset writes what they
speak of. -/
theorem stepKeepsDecoderInv : Obligations.StepKeepsDecoderInv := by
  unfold Obligations.StepKeepsDecoderInv
  intro s t hs h
  exact step_keeps (fun hd _ => DecoderInv.congr hd) decoderInv_reset exec_keeps_decoderInv
    (fun hs h => hs.congr (exec_trunc_decoderPart h)) hs h

/-! ### The token's invariants -/

theorem tokenPart_eq_iff {s t : State} : t.tokenPart = s.tokenPart ↔ t.tvalid = s.tvalid ∧ t.tlen = s.tlen ∧
    t.toff = s.toff ∧ t.traw = s.traw ∧ t.tval = s.tval ∧ t.token = s.token := by
  simp [State.tokenPart]

/-- TRUNC clears TVALID and leaves the token, or leaves the token it has rendered (43_truncate.md R144, R150). -/
theorem exec_trunc_token_cases {d : Nat} {s t : State} (h : exec (.trunc d) s = .next t) :
    (t.tvalid = false ∧ t.tlen = s.tlen ∧ t.traw = s.traw ∧ t.tval = s.tval ∧ t.token = s.token) ∨
    (1 ≤ d ∧ d ≤ 10 ∧ t.tlen.toNat = d ∧ t.traw = truncRaw s.digest ∧
      t.tval.toNat = tokenValue (truncRaw s.digest) d ∧ t.token = tokenBytes (tokenValue (truncRaw s.digest) d) d) := by
  rcases execTrunc_cases d s with ⟨c, -, e⟩ | ⟨h1, h10, -, -, e⟩ <;> cases e.symm.trans h
  · exact .inl ⟨rfl, rfl, rfl, rfl, rfl⟩
  · exact .inr ⟨h1, h10, Nat.mod_eq_of_lt (Nat.lt_of_le_of_lt h10 (by decide)), rfl, tokenValue_tval _ d, rfl⟩

/-- The token's invariants speak of the token's elements only. -/
theorem TokenInv.congr {s t : State} (htlen : t.tlen = s.tlen) (htraw : t.traw = s.traw) (htval : t.tval = s.tval)
    (htoken : t.token = s.token) (hs : TokenInv s) : TokenInv t := by
  obtain ⟨tlen_le, token_tail, tval_lt, tval_eq⟩ := hs
  constructor <;> simpa only [htlen, htraw, htval, htoken]

theorem tokenInv_reset : TokenInv State.reset where
  tlen_le := Nat.zero_le _
  token_tail i _ := (byteAt_replicate _ i).trans (ite_self _)
  tval_lt h := absurd h (by decide)
  tval_eq h := absurd h (by decide)

/-- A rendered token meets the token's invariants: TVAL is the remainder by 10^d, and the bytes from `d` on are 0
(43_truncate.md R147, R149). -/
theorem exec_trunc_keeps_tokenInv {d : Nat} {s t : State} (hs : TokenInv s) (h : exec (.trunc d) s = .next t) :
    TokenInv t := by
  rcases exec_trunc_token_cases h with ⟨-, htlen, htraw, htval, htoken⟩ | ⟨-, h10, htlen, htraw, htval, htoken⟩
  · exact hs.congr htlen htraw htval htoken
  · constructor <;> rw [htlen]
    case tlen_le => exact h10
    case token_tail => exact fun i hi => by rw [htoken, byteAt_tokenBytes, if_neg (by omega)]
    case tval_lt => exact fun _ => htval ▸ (tokenValue_lt _ d).1
    case tval_eq => exact fun _ => by rw [htval, htraw, tokenValue]

/-- Settles O32: a rendered token meets the invariants, and nothing else but a reset writes what they speak of. -/
theorem stepKeepsTokenInv : Obligations.StepKeepsTokenInv := by
  unfold Obligations.StepKeepsTokenInv
  intro s t hs h
  have hcongr {s t : State} (ht : t.tokenPart = s.tokenPart) (hs : TokenInv s) : TokenInv t := by
    obtain ⟨-, htlen, -, htraw, htval, htoken⟩ := tokenPart_eq_iff.mp ht
    exact hs.congr htlen htraw htval htoken
  exact step_keeps (fun _ ht => hcongr ht) tokenInv_reset
    (fun hi hs h => hcongr (exec_decoder_tokenPart hi h) hs) exec_trunc_keeps_tokenInv hs h

/-! ### A token that is shown -/

theorem tokenShown_reset : TokenShown State.reset where
  nonempty h := nomatch h
  tlen_le := Nat.zero_le _
  digits i h := absurd h (Nat.not_lt_zero i)

/-- That a token is shown whole needs TVALID to go to 1 with the token only. -/
theorem TokenShown.congr {s t : State} (htvalid : t.tvalid = true → s.tvalid = true) (htlen : t.tlen = s.tlen)
    (htval : t.tval = s.tval) (htoken : t.token = s.token) (hs : TokenShown s) : TokenShown t := by
  obtain ⟨nonempty, tlen_le, digits⟩ := hs
  constructor <;> simp only [htlen, htval, htoken]
  case nonempty => exact fun h => nonempty (htvalid h)
  case tlen_le => exact tlen_le
  case digits => exact digits

/-- A rendered token is shown whole, and a TRUNC that fails shows none (43_truncate.md R144, R148). -/
theorem exec_trunc_keeps_tokenShown {d : Nat} {s t : State} (hs : TokenShown s) (h : exec (.trunc d) s = .next t) :
    TokenShown t := by
  rcases exec_trunc_token_cases h with ⟨htvalid, htlen, -, htval, htoken⟩ | ⟨h1, h10, htlen, -, htval, htoken⟩
  · exact hs.congr (fun h => nomatch htvalid.symm.trans h) htlen htval htoken
  · constructor <;> rw [htlen]
    case nonempty => exact fun _ => h1
    case tlen_le => exact h10
    case digits =>
      intro i hi
      rw [htoken, byteAt_tokenBytes, if_pos ⟨Nat.lt_of_lt_of_le hi h10, hi⟩, tokenDigit_toNat, htval]

/-- Settles O33: a rendered token is shown whole, and nothing else but a reset writes the token's elements. -/
theorem stepKeepsTokenShown : Obligations.StepKeepsTokenShown := by
  unfold Obligations.StepKeepsTokenShown
  intro s t hs h
  have hcongr {s t : State} (ht : t.tokenPart = s.tokenPart) (hs : TokenShown s) : TokenShown t := by
    obtain ⟨htvalid, htlen, -, -, htval, htoken⟩ := tokenPart_eq_iff.mp ht
    exact hs.congr (fun h => htvalid.symm.trans h) htlen htval htoken
  exact step_keeps (fun _ ht => hcongr ht) tokenShown_reset
    (fun hi hs h => hcongr (exec_decoder_tokenPart hi h) hs) exec_trunc_keeps_tokenShown hs h

/-- Settles O34: at reset every element is 0. -/
theorem invariantsHoldAtReset : Obligations.InvariantsHoldAtReset := by
  unfold Obligations.InvariantsHoldAtReset
  exact ⟨decoderInv_reset, tokenInv_reset, tokenShown_reset⟩

end Sys2Proof.Machine
end

section
/-! SUPPORT. Encoding and decoding as inverses (30_encoding.md R81, R83, R88), and the list of the command words, which
the spec counts after R87. -/

namespace Sys2Proof

/-! ### The word of a command -/

theorem encode_fields (i : Instr) :
    rsvField (encode i) = 0 ∧ opField (encode i) = i.opcode ∧ argField (encode i) = i.arg := by
  simp [encode]

/-- The word of a well-formed command decodes to it (30_encoding.md R88). -/
theorem decode_encode {i : Instr} (hwf : i.wellFormed = true) : decode (encode i) = .ok i := by
  obtain ⟨hrsv, hop, harg⟩ := encode_fields i
  exact decode_of_fields hrsv hop harg hwf

/-- A word that decodes is its command's word: the fields of a command fix it (30_encoding.md R81). -/
theorem encode_of_decode {w : Word} {i : Instr} (h : decode w = .ok i) : encode i = w := by
  obtain ⟨hrsv, hop, harg, -⟩ := decode_eq_ok_iff.mp h
  exact (eq_append_iff_fields.mpr ⟨hrsv, harg, hop⟩).symm

/-! ### The command words, listed -/

/-- The commands whose ARG is reserved (30_encoding.md R85). -/
def plainCommands : List Instr := [.nop, .b32Finish, .ctrEnc, .srst]

/-- A command with an operand, for every value of ARG. -/
def forEveryArg (f : Fin 256 → Instr) : List Instr := (List.finRange 256).map f

/-- The well-formed commands: four without an operand, and three with one of 256 operands (30_encoding.md R82, R83). -/
def commands : List Instr :=
  plainCommands ++ (forEveryArg (fun a => .b32Init a) ++
    (forEveryArg (fun a => .b32Push (.ofFin a)) ++ forEveryArg (fun a => .trunc a)))

theorem length_commands : commands.length = 772 := by
  simp [commands, plainCommands, forEveryArg]

theorem mem_forEveryArg {f : Fin 256 → Instr} {i : Instr} : i ∈ forEveryArg f ↔ ∃ a, f a = i := by
  simp [forEveryArg]

theorem mem_commands {i : Instr} : i ∈ commands ↔ i.wellFormed = true := by
  simp only [commands, List.mem_append, mem_forEveryArg]
  cases i with
  | b32Init m => simp [plainCommands, Instr.wellFormed, Fin.exists_iff]
  | b32Push c => simp [plainCommands, Instr.wellFormed]
  | trunc d => simp [plainCommands, Instr.wellFormed, Fin.exists_iff]
  | nop | b32Finish | ctrEnc | srst => simp [plainCommands, Instr.wellFormed]

theorem nodup_forEveryArg {f : Fin 256 → Instr} (hf : Function.Injective f) : (forEveryArg f).Nodup :=
  (List.nodup_finRange 256).map hf

/-- No command is listed twice: the rows have different constructors, and a row's operands differ. -/
theorem nodup_commands : commands.Nodup := by
  have hinit : (forEveryArg fun a => .b32Init a).Nodup := nodup_forEveryArg fun a b h => Fin.ext (Instr.b32Init.inj h)
  have hpush : (forEveryArg fun a => .b32Push (.ofFin a)).Nodup :=
    nodup_forEveryArg fun a b h => congrArg BitVec.toFin (Instr.b32Push.inj h)
  have htrunc : (forEveryArg fun a => .trunc a).Nodup := nodup_forEveryArg fun a b h => Fin.ext (Instr.trunc.inj h)
  simp only [commands, List.nodup_append, List.mem_append, mem_forEveryArg]
  refine ⟨by decide, ⟨hinit, ⟨hpush, htrunc, ?_⟩, ?_⟩, ?_⟩
  · rintro _ ⟨a, rfl⟩ _ ⟨b, rfl⟩ h
    cases h
  · rintro _ ⟨a, rfl⟩ _ (⟨b, rfl⟩ | ⟨b, rfl⟩) h <;> cases h
  · rintro i hi _ (⟨b, rfl⟩ | ⟨b, rfl⟩ | ⟨b, rfl⟩) rfl <;> simp [plainCommands] at hi

/-- Different well-formed commands have different words, since each decodes to its own. -/
theorem encode_injOn {i j : Instr} (hi : i.wellFormed = true) (hj : j.wellFormed = true) (h : encode i = encode j) :
    i = j :=
  Except.ok.inj ((decode_encode hi).symm.trans ((congrArg decode h).trans (decode_encode hj)))

/-- The words of the well-formed commands are the words that decode (30_encoding.md R87). -/
theorem mem_map_encode_commands {w : Word} : w ∈ commands.map encode ↔ ∃ i, decode w = .ok i := by
  rw [List.mem_map]
  constructor
  · rintro ⟨i, hi, rfl⟩
    exact ⟨i, decode_encode (mem_commands.mp hi)⟩
  · rintro ⟨i, hi⟩
    exact ⟨i, mem_commands.mpr (wellFormed_of_decode hi), encode_of_decode hi⟩

/-! ### The obligations -/

/-- Settles O1: the encoded fields are the command's, and these decode to it. -/
theorem decodeOfEncode : Obligations.DecodeOfEncode := by
  unfold Obligations.DecodeOfEncode
  exact fun i hwf => decode_encode hwf

/-- Settles O2: the decoder takes the operand from ARG, and the command's fields are the word's. -/
theorem encodeOfDecode : Obligations.EncodeOfDecode := by
  unfold Obligations.EncodeOfDecode
  exact fun w i h => ⟨wellFormed_of_decode h, encode_of_decode h⟩

/-- Settles O8: the words of the listed commands, which `encode` keeps apart. -/
theorem legalWordsNumber772 : Obligations.LegalWordsNumber772 := by
  unfold Obligations.LegalWordsNumber772
  refine ⟨commands.map encode, ?_, ?_, fun w => mem_map_encode_commands⟩
  · exact nodup_commands.map_on fun i hi j hj => encode_injOn (mem_commands.mp hi) (mem_commands.mp hj)
  · rw [List.length_map, length_commands]

/-- Settles O7, by running the decoder on the eight words. -/
theorem exampleWordsDecode : Obligations.ExampleWordsDecode := by
  unfold Obligations.ExampleWordsDecode
  exact ⟨rfl, rfl, rfl, rfl, rfl, rfl, rfl, rfl⟩

end Sys2Proof
end

section
/-! SUPPORT. Steps and runs: where a step stops (20_memory.md R50; log 5), which commands complete
(60_exceptions.md R172), and what a reset and an idle step answer (70_reset_and_hazards.md R191, R192). -/

namespace Sys2Proof.Machine

/-! ### Where a step stops -/

/-- The next input names an offset that is not TOTPCORE's (20_memory.md R50). -/
def NextOutside (s : State) : Prop := ∃ a rest, s.inputs = .access a :: rest ∧ Config.windowSize ≤ a.off

theorem step_of_no_input {s : State} (hi : s.inputs = []) : step s = .next s := by
  rw [step, takeInput, hi]

theorem step_of_outside {s : State} (h : NextOutside s) : step s = .fault .outsideWindow := by
  obtain ⟨a, rest, hi, hout⟩ := h
  rw [step, takeInput, hi]
  exact if_pos hout

/-- An access that is served is answered with a next state: a read changes nothing, and what a write does completes. -/
theorem performAccess_completes (a : Access) (s : State) : ∃ t, performAccess a s = .next t := by
  unfold performAccess
  split
  · exact ⟨s, rfl⟩
  · next v _ =>
    split
    · exact runWord_completes v s
    · exact ⟨_, rfl⟩

/-- A step that names no offset outside the window answers a next state (60_exceptions.md R172). -/
theorem step_completes {s : State} (h : ¬ NextOutside s) : ∃ t, step s = .next t := by
  cases hi : s.inputs with
  | nil => exact ⟨s, step_of_no_input hi⟩
  | cons input rest =>
    cases input with
    | hardwareReset => exact ⟨_, step_hardwareReset hi⟩
    | access a =>
      have hw : a.off < Config.windowSize := Nat.not_le.mp fun hle => h ⟨a, rest, hi, hle⟩
      obtain ⟨u, hu⟩ := performAccess_completes a (s.setInputs rest)
      rw [step_access hi hw, hu, ← apply_ite]
      exact ⟨_, rfl⟩

/-- The two outcomes of a step: the fault of an access outside the window, or a next state (log 5). -/
theorem step_outcome (s : State) :
    (NextOutside s ∧ step s = .fault .outsideWindow) ∨ (¬ NextOutside s ∧ ∃ t, step s = .next t) := by
  by_cases h : NextOutside s
  · exact .inl ⟨h, step_of_outside h⟩
  · exact .inr ⟨h, step_completes h⟩

/-- An access that a step serves names a window offset. -/
theorem off_lt_of_step {s t : State} {a : Access} {rest : List Input} (hi : s.inputs = .access a :: rest)
    (h : step s = .next t) : a.off < Config.windowSize := by
  rcases step_outcome s with ⟨-, e⟩ | ⟨hin, -⟩
  · cases e.symm.trans h
  · exact Nat.not_le.mp fun hle => hin ⟨a, rest, hi, hle⟩

/-- A step takes the first input, where there is one (20_memory.md R57; log 1). -/
theorem step_inputs {s t : State} (h : step s = .next t) : t.inputs = s.inputs.tail := by
  rcases step_cases h with ⟨hi, rfl⟩ | ⟨rest, hi, rfl⟩ | ⟨_, rest, hi, -, -, rfl⟩ |
    ⟨_, off, v, rest, hi, -, -, -, rfl⟩ | ⟨_, w, rest, u, hi, hu, rfl⟩
  · rw [hi, List.tail_nil]
  · rw [hi]; rfl
  · rw [hi]; rfl
  · obtain ⟨_, _, _, _, hf⟩ := writeWord_frame off v (s.setInputs rest)
    rw [hf, hi]; rfl
  · have hport : u.inputs = rest := by
      rcases runWord_cases w (s.setInputs rest) with ⟨i, -, e⟩ | ⟨_, -, e⟩
      · exact (exec_port (e.symm.trans hu)).1
      · cases e.symm.trans hu; rfl
    rw [hi]; exact hport

/-- In a run inside the window every step answers a next state of the same kind. -/
theorem step_of_inWindow {s : State} (h : InWindow s) : ∃ t, step s = .next t ∧ InWindow t := by
  have hin : ¬ NextOutside s := by
    rintro ⟨a, rest, hi, hout⟩
    exact Nat.not_le.mpr (h a (by rw [hi]; exact List.mem_cons_self)) hout
  obtain ⟨t, ht⟩ := step_completes hin
  refine ⟨t, ht, fun a ha => h a ?_⟩
  rw [step_inputs ht] at ha
  exact List.mem_of_mem_tail ha

/-! ### The obligations -/

/-- Settles O11, by induction on the number of steps. -/
theorem runsInsideTheWindowNeverStop : Obligations.RunsInsideTheWindowNeverStop := by
  unfold Obligations.RunsInsideTheWindowNeverStop
  intro n
  induction n with
  | zero => exact fun s h => ⟨s, rfl, h⟩
  | succ n ih =>
    intro s h
    obtain ⟨t, ht, hin⟩ := step_of_inWindow h
    rw [run_succ_of_next ht]
    exact ih t hin

/-- Settles O12: outside the window a step faults, and inside it answers a next state. -/
theorem stepStopsOnlyOutsideTheWindow : Obligations.StepStopsOnlyOutsideTheWindow := by
  unfold Obligations.StepStopsOnlyOutsideTheWindow
  refine ⟨fun s f => ⟨fun h => ?_, ?_⟩, fun s r h => ?_⟩
  · rcases step_outcome s with ⟨hout, e⟩ | ⟨-, t, e⟩ <;> cases e.symm.trans h
    exact ⟨rfl, hout⟩
  · rintro ⟨rfl, hout⟩
    exact step_of_outside hout
  · rcases step_outcome s with ⟨-, e⟩ | ⟨-, t, e⟩ <;> cases e.symm.trans h

/-- Settles O9: a write to CMD runs its word, and the word is its command. -/
theorem commandWriteRunsItsCommand : Obligations.CommandWriteRunsItsCommand := by
  unfold Obligations.CommandWriteRunsItsCommand
  intro s m w i rest hi hd
  rw [step_write_cmd hi, runWord_of_decode hd]
  rfl

/-- Settles O10: each command's cases answer next states, and an illegal word sets ERR. -/
theorem everyCommandCompletes : Obligations.EveryCommandCompletes := by
  unfold Obligations.EveryCommandCompletes
  exact ⟨exec_completes, runWord_completes⟩

/-- Settles O13: the idle step. -/
theorem waitingChangesNothing : Obligations.WaitingChangesNothing := by
  unfold Obligations.WaitingChangesNothing
  exact fun s hi => step_of_no_input hi

/-- Settles O14: a hardware reset keeps nothing but the inputs still to come. -/
theorem hardwareResetSetsTheResetState : Obligations.HardwareResetSetsTheResetState := by
  unfold Obligations.HardwareResetSetsTheResetState
  intro s rest hi
  rw [step_hardwareReset hi]
  rfl

end Sys2Proof.Machine
end

section
/-! SUPPORT. The obligations about the bus that go over more than one access, or over what every offset reads
(20_memory.md R50, R53, R56, R63), and about the state right after reset (70_reset_and_hazards.md R190, R194). -/

namespace Sys2Proof.Machine

/-! ### Fields of the registers -/

section
variable (s : State)

theorem statusWord_krdy : (statusWord s).getLsbD 4 = krdy s := by
  simp only [statusWord]
  grind

theorem statusWord_tvalid : (statusWord s).getLsbD 5 = s.tvalid := by
  simp only [statusWord]
  grind

theorem b32statWord_b32st : (b32statWord s).extractLsb' 0 2 = s.b32st.bits := by
  ext k hk
  simp only [b32statWord]
  grind

theorem b32statWord_nsym : (b32statWord s).extractLsb' 2 3 = s.nsym := by
  ext k hk
  simp only [b32statWord]
  grind

theorem b32statWord_klen : (b32statWord s).extractLsb' 8 7 = s.klen := by
  ext k hk
  simp only [b32statWord]
  grind

theorem b32statWord_kmax : (b32statWord s).extractLsb' 16 7 = s.kmax := by
  ext k hk
  simp only [b32statWord]
  grind

theorem dstatWord_dv : (dstatWord s).getLsbD 0 = s.dv := by
  simp only [dstatWord]
  grind

theorem dstatWord_merr : (dstatWord s).getLsbD 1 = s.merr := by
  simp only [dstatWord]
  grind

theorem tresWord_toff : (tresWord s).extractLsb' 0 4 = s.toff := by
  ext k hk
  simp only [tresWord]
  grind

theorem tresWord_tlen : (tresWord s).extractLsb' 8 4 = s.tlen := by
  ext k hk
  simp only [tresWord]
  grind

theorem trawWord_toNat : (trawWord s).toNat = s.traw.toNat := by
  rw [trawWord, BitVec.toNat_append, BitVec.toNat_zero, Nat.zero_shiftLeft, Nat.zero_or]

end

/-- Settles O22: the register map's word at each offset, and its fields one by one. -/
theorem registerFieldsReadBack : Obligations.RegisterFieldsReadBack := by
  unfold Obligations.RegisterFieldsReadBack
  intro s
  refine ⟨rfl, statusWord_err s, ?_, statusWord_tvalid s, b32statWord_b32st s, b32statWord_nsym s,
    b32statWord_klen s, b32statWord_kmax s, rfl, rfl, dstatWord_dv s, dstatWord_merr s, tresWord_toff s,
    tresWord_tlen s, trawWord_toNat s, rfl⟩
  have hkrdy : (readWord 0x004 s).getLsbD 4 = krdy s := statusWord_krdy s
  rw [hkrdy, krdy, decide_eq_true_iff]

/-! ### The placement of the window -/

/-- Settles O30: the window is P_BASE and the 0x200 addresses from it on, and P_BASE is 0x200 times a number. -/
theorem busAddressesSelectOffsets : Obligations.BusAddressesSelectOffsets := by
  unfold Obligations.BusAddressesSelectOffsets
  refine ⟨fun addr off => ?_, Nat.mul_mod_right _ _⟩
  have hsize : Config.windowSize = 0x200 := rfl
  unfold windowOffset
  split
  · rw [Option.some_inj]
    omega
  · simp only [reduceCtorEq, false_iff]
    omega

/-! ### One access after another -/

/-- What the bus reads at an offset is a view of the elements (20_memory.md R53). -/
theorem readWord_elements (off : Nat) (s : State) : readWord off s.elements = readWord off s := rfl

theorem readWord_congr {s t : State} (h : t.elements = s.elements) (off : Nat) : readWord off t = readWord off s := by
  rw [← readWord_elements, h, readWord_elements]

/-- The response to an access is read off the elements. -/
theorem response_congr {s t : State} (h : t.elements = s.elements) (a : Access) : a.response t = a.response s := by
  rw [Access.response, Access.response, readWord_congr h]

/-- Settles O21, by the step of an aligned read. -/
theorem readsReturnTheCurrentWord : Obligations.ReadsReturnTheCurrentWord := by
  unfold Obligations.ReadsReturnTheCurrentWord
  exact fun s m off rest hi hw ha => step_read_aligned hi hw ha

/-- What `writeWord` sets does not depend on what it has set before (20_memory.md R63). -/
theorem writeWord_writeWord (off : Nat) (v : Word) (s : State) :
    writeWord off v (writeWord off v s) = writeWord off v s := by
  by_cases hlo : off = 0x00C
  · subst hlo
    rw [writeWord_cntLo, writeWord_cntLo, cntHiWord_setCounter_append]
    rfl
  by_cases hhi : off = 0x010
  · subst hhi
    rw [writeWord_cntHi, writeWord_cntHi, cntLoWord_setCounter_append]
    rfl
  by_cases hds : off = 0x014
  · subst hds
    rw [writeWord_dstat, writeWord_dstat]
    rfl
  by_cases hdg : 0x0C0 ≤ off ∧ off < 0x100
  · rw [writeWord_digest _ v hdg.1 hdg.2, writeWord_digest _ v hdg.1 hdg.2, State.setDigest_digest,
      writeLanes_writeLanes]
    generalize writeLanes s.digest (off - 0x0C0) v = digest
    rfl
  · rw [writeWord_ignored s v hlo hhi hds hdg, writeWord_ignored s v hlo hhi hds hdg]

/-- `writeWord` neither reads nor writes the model's own two fields. -/
theorem writeWord_elements (off : Nat) (v : Word) (s : State) :
    writeWord off v s.elements = (writeWord off v s).elements := by
  unfold writeWord
  split_ifs <;> rfl

/-- A write to an offset other than CMD's leaves the elements that `writeWord` gives or, with a bus error, none changed;
in both cases from the elements alone (20_memory.md R62, R64). -/
theorem step_write_elements {s t : State} {m : Master} {off : Nat} {v : Word} {rest : List Input}
    (hi : s.inputs = .access ⟨m, off, 4, .write v⟩ :: rest) (h0 : off ≠ 0x000) (h : step s = .next t) :
    t.elements = (if off % 4 = 0 then writeWord off v s.elements else s.elements) := by
  have hw : off < Config.windowSize := off_lt_of_step hi h
  by_cases ha : off % 4 = 0
  · cases (step_write_register hi hw ha h0).symm.trans h
    rw [if_pos ha, elements_setResponse, ← writeWord_elements, elements_setInputs]
  · cases (step_busError hi hw ((isBusError_iff _).mpr (.inl ha))).symm.trans h
    rw [if_neg ha]
    rfl

/-- A second TRUNC finds the digest consumed: with a digest waiting at first, it leaves another state
(43_truncate.md R142). -/
theorem trunc_not_idempotent : ∃ s t u, exec (.trunc 6) s = .next t ∧ exec (.trunc 6) t = .next u ∧ u ≠ t := by
  refine ⟨State.reset.setDstat true false, _, _, exec_trunc_of_digest (by decide) (by decide) rfl rfl,
    exec_trunc_of_no_digest (by decide) (by decide) rfl rfl, fun h => ?_⟩
  exact absurd (congrArg State.err h) (by decide)

/-- Settles O28: a read changes no element, `writeWord` is idempotent, and a second TRUNC finds no digest. -/
theorem readsAndRegisterWritesAreIdempotent : Obligations.ReadsAndRegisterWritesAreIdempotent := by
  unfold Obligations.ReadsAndRegisterWritesAreIdempotent
  refine ⟨fun s t u a rest hi hk hs ht => ?read, fun s t u m off v rest hi h0 hs ht => ?write, ?command⟩
  case read =>
    have hw := off_lt_of_step hi hs
    have hit : t.inputs = .access a :: rest := by rw [step_inputs hs, hi, List.tail_cons]
    cases (step_read hi hw hk).symm.trans hs
    cases (step_read hit hw hk).symm.trans ht
    exact congrArg some (response_congr rfl a)
  case write =>
    have hit : t.inputs = .access ⟨m, off, 4, .write v⟩ :: rest := by rw [step_inputs hs, hi, List.tail_cons]
    rw [step_write_elements hit h0 ht, step_write_elements hi h0 hs]
    split
    · exact writeWord_writeWord off v s.elements
    · rfl
  case command =>
    obtain ⟨s, t, u, hs, ht, hne⟩ := trunc_not_idempotent
    have hd : decode 0x00000605 = .ok (.trunc 6) := rfl
    exact ⟨0x00000605, s, t, u, (runWord_of_decode hd s).trans hs, (runWord_of_decode hd t).trans ht, hne⟩

/-- An outcome with a response that is a next state is one that answers it. -/
theorem withResponse_eq_next {r : Response} {o : Host.Outcome State Fault Refusal} {t : State}
    (h : withResponse r o = .next t) : ∃ u, o = .next u ∧ t = u.setResponse (some r) := by
  cases o with
  | next u => cases h; exact ⟨u, rfl, rfl⟩
  | fault f => cases h
  | refused f => cases h

/-- Settles O29: what an access does, and its response but for the addressee, do not depend on its master. -/
theorem mastersAreNotDistinguished : Obligations.MastersAreNotDistinguished := by
  unfold Obligations.MastersAreNotDistinguished
  intro s t a m rest hi h
  have hw := off_lt_of_step hi h
  obtain ⟨u, hu, rfl⟩ := withResponse_eq_next ((step_access hi hw).symm.trans h)
  refine ⟨a.response (s.setInputs rest), rfl, rfl, ?_⟩
  rw [step_access (s := { s with inputs := .access { a with master := m } :: rest }) rfl hw]
  exact congrArg (withResponse { a.response (s.setInputs rest) with master := m }) hu

end Sys2Proof.Machine
end

section
/-! SUPPORT. The obligations about single commands of the decoder: B32_PUSH outside ACTIVE and inside a group
(41_base32.md R107), and B32_FINISH (R109); and what every command answers right after reset
(70_reset_and_hazards.md R190, R194). -/

namespace Sys2Proof.Machine

theorem exec_b32Push_idle {s : State} (h : s.b32st = .idle) (c : Byte) :
    exec (.b32Push c) s = .next (s.setErr .seq) := by
  simp [exec, execB32Push, h]

theorem exec_b32Finish_idle {s : State} (h : s.b32st = .idle) : exec .b32Finish s = .next (s.setErr .seq) := if_pos h

/-- Settles O37, by the equation of each state but ACTIVE. -/
theorem pushOutsideActiveIsIgnored : Obligations.PushOutsideActiveIsIgnored := by
  unfold Obligations.PushOutsideActiveIsIgnored
  exact fun s c => ⟨fun h => exec_b32Push_idle h c, fun h => exec_b32Push_ended h c⟩

/-- Settles O38: a symbol that does not fill its group only joins it. -/
theorem pushCollectsASymbol : Obligations.PushCollectsASymbol := by
  unfold Obligations.PushCollectsASymbol
  intro s c v ha hc hn
  refine ⟨joined v s, BitVec.ofNat 3 (s.nsym.toNat + 1), ?_, ?_, joined_toNat v s⟩
  · rw [exec_b32Push_symbol ha hc, pushSymbol_partial v hn]
    rfl
  · rw [BitVec.toNat_ofNat, Nat.mod_eq_of_lt (by omega)]

/-- In FINISHED a key is ready exactly where KLEN is not 0 (10_state.md R23). -/
theorem krdy_of_finished {s : State} (h : s.b32st = .finished) : krdy s = decide (0 < s.klen.toNat) := by
  simp [krdy, h]

/-- Whether B32_FINISH reports EMPTY_KEY, by KLEN as a number (41_base32.md R109). -/
theorem finishCode_toNat (klen : BitVec 7) :
    (if klen = 0 then ResultCode.emptyKey else .ok) = if klen.toNat = 0 then .emptyKey else .ok := by
  have h : klen = 0 ↔ klen.toNat = 0 := BitVec.toNat_inj.symm
  simp only [h]

/-- B32_FINISH in ACTIVE flushes the group (41_base32.md R109). -/
theorem exec_b32Finish_active {s : State} (ha : s.b32st = .active) :
    exec .b32Finish s = .next ((((s.setKey (flush s).key (flush s).klen).setGroup 0 0).setB32st .finished).setErr
      (if (flush s).klen.toNat = 0 then .emptyKey else .ok)) := by
  rw [exec_b32Finish_of_not_idle (by rw [ha]; decide), endInput_of_active ha, State.setB32st_klen, finishCode_toNat,
    ← flush_frame]

/-- B32_FINISH after the end of input leaves the key (41_base32.md R109, R111). -/
theorem exec_b32Finish_ended {s : State} (h : s.b32st = .stopped ∨ s.b32st = .finished) :
    exec .b32Finish s = .next ((s.setB32st .finished).setErr (if s.klen.toNat = 0 then .emptyKey else .ok)) := by
  have hidle : s.b32st ≠ .idle := by rcases h with h | h <;> rw [h] <;> decide
  have hactive : s.b32st ≠ .active := by rcases h with h | h <;> rw [h] <;> decide
  rw [exec_b32Finish_of_not_idle hidle, endInput_of_not_active hactive, State.setB32st_klen, finishCode_toNat]

/-- Settles O41: the three equations of B32_FINISH, and the bytes of a flush. -/
theorem finishPublishesTheKey : Obligations.FinishPublishesTheKey := by
  unfold Obligations.FinishPublishesTheKey
  refine ⟨fun s h => exec_b32Finish_idle h, fun s hcap ha => ?_, fun s h => ?_⟩
  · exact ⟨(flush s).key, (flush s).klen, _, rfl, exec_b32Finish_active ha, flush_appended hcap, krdy_of_finished rfl⟩
  · exact ⟨_, rfl, exec_b32Finish_ended h, krdy_of_finished rfl⟩

/-! ### Right after reset -/

/-- Settles O17: both resets leave the same elements, and those of `State.reset` read 0 everywhere. -/
theorem resetsCannotBeToldApart : Obligations.ResetsCannotBeToldApart := by
  unfold Obligations.ResetsCannotBeToldApart
  refine ⟨fun s s' t t' rest hsrst hi hstep off => readWord_congr ?_ off, exec_srst _, fun off _ _ => readWord_reset off⟩
  exact srstIsAReset.2 s s' t t' rest hsrst hi hstep

/-- A zero counter encodes to zero bytes (42_counter.md R131). -/
theorem byteAt_counterBytes_zero (i : Nat) : byteAt (counterBytes 0) i = 0 := by
  by_cases hi : i < 8
  · rw [byteAt_counterBytes 0 hi]
    exact BitVec.extractLsb'_zero
  · exact byteAt_of_le _ (Nat.le_of_not_lt hi)

/-- Settles O18: the outcome of each command from IDLE with no digest waiting and COUNTER 0. -/
theorem nothingNeedsInitialising : Obligations.NothingNeedsInitialising := by
  unfold Obligations.NothingNeedsInitialising
  refine ⟨⟨_, exec_ctrEnc _, rfl, byteAt_counterBytes_zero⟩,
    fun d h1 h10 => ⟨_, exec_trunc_of_no_digest h1 h10 rfl rfl, rfl⟩, fun m hm => ⟨_, exec_b32Init_of_le _ hm, rfl, ?_⟩,
    ⟨_, exec_nop _, rfl⟩, ⟨_, exec_srst _, rfl⟩, fun c => ⟨_, exec_b32Push_idle rfl c, rfl⟩,
    ⟨_, exec_b32Finish_idle rfl, rfl⟩⟩
  exact (BitVec.toNat_ofNat m 7).trans (Nat.mod_eq_of_lt (by omega))

end Sys2Proof.Machine
end

section
/-! SUPPORT. The whole decode of 41_base32.md R115: the symbols read so far stand as one number, its full groups in KEY
and the rest in ACC, and every emission appends the next whole bytes of that number. -/

namespace Sys2Proof.Machine

/-! ### The number of a list of symbols -/

/-- A list's number is its first part's number, shifted, above its second part's (41_base32.md R115). -/
theorem symbolsValue_append (vs ws : List (BitVec 5)) :
    symbolsValue (vs ++ ws) = symbolsValue vs * 2 ^ (5 * ws.length) + symbolsValue ws := by
  induction ws using List.reverseRecOn with
  | nil => simp [symbolsValue]
  | append_singleton ws w ih =>
    have hlast (us : List (BitVec 5)) : symbolsValue (us ++ [w]) = symbolsValue us * 2 ^ 5 + w.toNat := by
      simp [symbolsValue]
    rw [← List.append_assoc, hlast, hlast, ih, List.length_append, List.length_singleton, Nat.mul_add, Nat.pow_add]
    ring

theorem symbolsValue_singleton (v : BitVec 5) : symbolsValue [v] = v.toNat := by
  simp [symbolsValue]

theorem symbolsValue_lt (vs : List (BitVec 5)) : symbolsValue vs < 2 ^ (5 * vs.length) := by
  induction vs using List.reverseRecOn with
  | nil => decide
  | append_singleton vs v ih =>
    have hv := v.isLt
    have hpow : 2 ^ (5 * (vs.length + 1)) = 2 ^ (5 * vs.length) * 2 ^ 5 := by rw [← Nat.pow_add]; rfl
    rw [symbolsValue_append, symbolsValue_singleton, List.length_append, List.length_singleton, hpow]
    omega

/-! ### The bytes of a number, from the top -/

/-- Bits joined below a number do not change what stands above them. -/
theorem shifted_add_div {V a k : Nat} (ha : a < 2 ^ k) (e : Nat) : (V * 2 ^ k + a) / 2 ^ (e + k) = V / 2 ^ e := by
  have hV : (V * 2 ^ k + a) / 2 ^ k = V := by
    rw [Nat.mul_comm, Nat.mul_add_div (by positivity), Nat.div_eq_of_lt ha, Nat.add_zero]
  rw [Nat.add_comm e k, Nat.pow_add, ← Nat.div_div_eq_div_mul, hV]

/-- A byte that lies wholly in the low bits does not depend on what is joined above them. -/
theorem shifted_add_byte (V a e c : Nat) : (V * 2 ^ (e + 8 + c) + a) / 2 ^ e % 256 = a / 2 ^ e % 256 := by
  have hV : V * 2 ^ (e + 8 + c) = 2 ^ e * (256 * (V * 2 ^ c)) := by
    rw [Nat.pow_add, Nat.pow_add]
    ring
  rw [hV, Nat.mul_add_div (by positivity), Nat.mul_add_mod]

/-- KEY holds the first whole bytes of a number of `bits` bits, as many as KMAX has space for, and zeros after them
(41_base32.md R115). -/
structure HoldsBytes (s : State) (V bits : Nat) : Prop where
  klen : s.klen.toNat = min (bits / 8) s.kmax.toNat
  bytes : ∀ i, i < s.klen.toNat → (byteAt s.key i).toNat = V / 2 ^ (bits - 8 * (i + 1)) % 256
  tail : ∀ i, s.klen.toNat ≤ i → byteAt s.key i = 0

theorem HoldsBytes.setGroup {s : State} {V bits : Nat} (h : HoldsBytes s V bits) (acc : BitVec 40) (nsym : BitVec 3) :
    HoldsBytes (s.setGroup acc nsym) V bits := ⟨h.klen, h.bytes, h.tail⟩

theorem HoldsBytes.setB32st {s : State} {V bits : Nat} (h : HoldsBytes s V bits) (x : B32State) :
    HoldsBytes (s.setB32st x) V bits := ⟨h.klen, h.bytes, h.tail⟩

theorem HoldsBytes.setErr {s : State} {V bits : Nat} (h : HoldsBytes s V bits) (c : ResultCode) :
    HoldsBytes (s.setErr c) V bits := ⟨h.klen, h.bytes, h.tail⟩

/-- A full KEY holds the first bytes of every number that goes on with more bits (41_base32.md R114). -/
theorem HoldsBytes.extend {s : State} {V bits a k : Nat} (h : HoldsBytes s V bits) (hfull : s.kmax.toNat ≤ bits / 8)
    (ha : a < 2 ^ k) : HoldsBytes s (V * 2 ^ k + a) (bits + k) := by
  have hklen := h.klen
  refine ⟨by omega, fun i hi => ?_, h.tail⟩
  have hshift : bits + k - 8 * (i + 1) = bits - 8 * (i + 1) + k := by omega
  rw [h.bytes i hi, hshift, shifted_add_div ha]

/-- `emit` appends the next whole bytes: after whole groups, the symbols in ACC go on with the number in KEY
(41_base32.md R105). -/
theorem HoldsBytes.emit {s : State} {V q k : Nat} (h : HoldsBytes s V (40 * q)) (hmax : s.kmax.toNat ≤ Config.keyMax)
    (hacc : s.acc.toNat < 2 ^ (5 * k)) :
    HoldsBytes (emit k s) (V * 2 ^ (5 * k) + s.acc.toNat) (40 * q + 5 * k) := by
  have hq := h.klen
  have hle : s.klen.toNat ≤ s.kmax.toNat := by omega
  have hklen := emit_klen k hle
  have hkmax : (Machine.emit k s).kmax = s.kmax := emitUpTo_kmax k _ s
  refine ⟨by rw [hkmax]; omega, fun i hi => ?_, fun i hi => ?_⟩
  · rw [emit_key k hle hmax]
    by_cases hold : i < s.klen.toNat
    · have hshift : 40 * q + 5 * k - 8 * (i + 1) = 40 * q - 8 * (i + 1) + 5 * k := by omega
      rw [if_neg (by omega), h.bytes i hold, hshift, shifted_add_div hacc]
    · obtain ⟨e, he⟩ : ∃ e, 5 * k = e + 8 + 8 * (i - s.klen.toNat) := ⟨5 * k - 8 - 8 * (i - s.klen.toNat), by omega⟩
      have hbyte : 5 * k - 8 - 8 * (i - s.klen.toNat) = e := by omega
      have hshift : 40 * q + 5 * k - 8 * (i + 1) = e := by omega
      rw [if_pos ⟨by omega, hi⟩, BitVec.extractLsb'_toNat, Nat.shiftRight_eq_div_pow, hbyte, hshift, he]
      exact (shifted_add_byte _ _ _ _).symm
  · rw [emit_key k hle hmax, if_neg (by omega)]
    exact h.tail i (by omega)

/-! ### Between two characters -/

/-- ACTIVE after the symbols `vs`, with capacity `m`: the full groups' number is in KEY, and the partial group in ACC
(41_base32.md R107). -/
structure Reading (m : Nat) (vs : List (BitVec 5)) (s : State) : Prop where
  active : s.b32st = .active
  kmax : s.kmax.toNat = m
  nsym : s.nsym.toNat = vs.length % 8
  acc_lt : s.acc.toNat < 2 ^ (5 * s.nsym.toNat)
  value : ∃ V, symbolsValue vs = V * 2 ^ (5 * s.nsym.toNat) + s.acc.toNat ∧ HoldsBytes s V (40 * (vs.length / 8))

/-- STOPPED after the symbols `vs`, with capacity `m`: KEY holds the whole bytes of their number, and no group is open
(41_base32.md R107, R108). -/
structure Ended (m : Nat) (vs : List (BitVec 5)) (s : State) : Prop where
  stopped : s.b32st = .stopped
  err : s.err = .ok
  kmax : s.kmax.toNat = m
  nsym : s.nsym = 0
  acc : s.acc = 0
  key : HoldsBytes s (symbolsValue vs) (5 * vs.length)

section
variable {m : Nat} {vs : List (BitVec 5)} {s : State}

/-- A flush leaves the whole bytes of the symbols' number (41_base32.md R106). -/
theorem Reading.flushed (h : Reading m vs s) (hm : m ≤ 64) :
    HoldsBytes (flush s) (symbolsValue vs) (5 * vs.length) := by
  obtain ⟨V, hV, hkey⟩ := h.value
  have hbits : 5 * vs.length = 40 * (vs.length / 8) + 5 * s.nsym.toNat := by have := h.nsym; omega
  rw [flush_eq_emit, hV, hbits]
  exact (hkey.emit (h.kmax.trans_le hm) h.acc_lt).setGroup 0 0

/-- A character outside the alphabet ends the input (41_base32.md R108). -/
theorem Reading.terminated (h : Reading m vs s) (hm : m ≤ 64) :
    Ended m vs (((flush s).setB32st .stopped).setErr .ok) where
  stopped := rfl
  err := rfl
  kmax := by rw [← h.kmax, flush_frame]; rfl
  nsym := rfl
  acc := rfl
  key := ((h.flushed hm).setB32st .stopped).setErr .ok

/-- A symbol that does not fill its group joins it. -/
theorem Reading.push_partial (h : Reading m vs s) (v : BitVec 5) (hn : s.nsym.toNat < 7) :
    Reading m (vs ++ [v]) ((pushSymbol v s).setErr .ok) := by
  obtain ⟨V, hV, hkey⟩ := h.value
  have hnsym := h.nsym
  have hn' : (BitVec.ofNat 3 (s.nsym.toNat + 1)).toNat = s.nsym.toNat + 1 := by
    rw [BitVec.toNat_ofNat, Nat.mod_eq_of_lt (by omega)]
  have hacc : (joined v s).toNat = s.acc.toNat * 2 ^ 5 + v.toNat := by
    have hpow : 2 ^ (5 * s.nsym.toNat) ≤ 2 ^ 30 := Nat.pow_le_pow_right (by decide) (by omega)
    have hlt := h.acc_lt
    have hv := v.isLt
    rw [joined_toNat, Nat.mod_eq_of_lt (by omega)]
  have hlen : (vs ++ [v]).length = vs.length + 1 := List.length_append
  have hgroups : (vs.length + 1) / 8 = vs.length / 8 := by omega
  rw [pushSymbol_partial v hn]
  refine ⟨h.active, h.kmax, ?_, ?_, V, ?_, ?_⟩
  · rw [State.setErr_nsym, State.setGroup_nsym, hn', hlen]
    omega
  · rw [State.setErr_nsym, State.setGroup_nsym, hn', State.setErr_acc, State.setGroup_acc]
    exact joined_lt h.acc_lt
  · rw [State.setErr_nsym, State.setGroup_nsym, hn', State.setErr_acc, State.setGroup_acc, hacc, symbolsValue_append,
      symbolsValue_singleton, hV, Nat.mul_add 5, Nat.pow_add, List.length_singleton]
    ring
  · rw [hlen, hgroups]
    exact (hkey.setGroup _ _).setErr .ok

/-- The symbol that fills its group puts the whole number into KEY (41_base32.md R107). -/
theorem Reading.group_emitted (h : Reading m vs s) (v : BitVec 5) (hm : m ≤ 64) (hn : s.nsym.toNat = 7) :
    HoldsBytes (groupEmitted v s) (symbolsValue (vs ++ [v])) (5 * (vs ++ [v]).length) := by
  obtain ⟨V, hV, hkey⟩ := h.value
  have hnsym := h.nsym
  have hlen : 5 * (vs ++ [v]).length = 40 * (vs.length / 8) + 5 * 8 := by
    rw [List.length_append, List.length_singleton]; omega
  have hvalue : symbolsValue (vs ++ [v]) = V * 2 ^ (5 * 8) + (joined v s).toNat := by
    have hv := v.isLt
    have hacc := h.acc_lt
    rw [hn] at hV hacc
    rw [symbolsValue_append, symbolsValue_singleton, joined_toNat, hV, List.length_singleton,
      Nat.mod_eq_of_lt (by omega)]
    ring
  have hemit := (hkey.setGroup (joined v s) 0).emit (k := 8) (h.kmax.trans_le hm) (joined v s).isLt
  rw [hvalue, hlen]
  exact hemit.setGroup 0 0

/-- After a whole group the decoder reads on, or has stopped because KEY is full (41_base32.md R107, R114). -/
theorem Reading.push_full (h : Reading m vs s) (v : BitVec 5) (hm : m ≤ 64) (hn : s.nsym.toNat = 7) :
    Reading m (vs ++ [v]) ((pushSymbol v s).setErr .ok) ∨
      (Ended m (vs ++ [v]) ((pushSymbol v s).setErr .ok) ∧ m ≤ 5 * (vs ++ [v]).length / 8) := by
  have hkey := h.group_emitted v hm hn
  have hst := (groupEmitted_b32st v s).trans h.active
  have hkmax : (groupEmitted v s).kmax.toNat = m := by rw [groupEmitted_kmax, h.kmax]
  have hnsym := groupEmitted_nsym v s
  have hacc := groupEmitted_acc v s
  rw [pushSymbol_full v hn]
  generalize groupEmitted v s = t at hkey hst hkmax hnsym hacc ⊢
  have hklen := hkey.klen
  have hnsym0 : t.nsym.toNat = 0 := by rw [hnsym]; rfl
  have hacc0 : t.acc.toNat = 0 := by rw [hacc]; rfl
  split
  · next hfull =>
    rw [hfull] at hklen
    exact .inr ⟨⟨rfl, rfl, hkmax, hnsym, hacc, (hkey.setB32st .stopped).setErr .ok⟩, by omega⟩
  · have hlen : (vs ++ [v]).length % 8 = 0 := by
      have := h.nsym
      rw [List.length_append, List.length_singleton]; omega
    have hbits : 40 * ((vs ++ [v]).length / 8) = 5 * (vs ++ [v]).length := by omega
    refine .inl ⟨hst, hkmax, hnsym0.trans hlen.symm, ?_, symbolsValue (vs ++ [v]), ?_, ?_⟩
    · rw [State.setErr_acc, hacc0]; positivity
    · simp [hnsym0, hacc0]
    · rw [hbits]; exact hkey.setErr .ok

/-- A symbol read in ACTIVE (41_base32.md R107). -/
theorem Reading.push (h : Reading m vs s) (v : BitVec 5) (hm : m ≤ 64) :
    Reading m (vs ++ [v]) ((pushSymbol v s).setErr .ok) ∨
      (Ended m (vs ++ [v]) ((pushSymbol v s).setErr .ok) ∧ m ≤ 5 * (vs ++ [v]).length / 8) := by
  have hlt := s.nsym.isLt
  by_cases hn : s.nsym.toNat = 7
  · exact h.push_full v hm hn
  · exact .inl (h.push_partial v (by omega))

/-- Symbols after KEY is full change nothing: KEY holds the first bytes of their number too (41_base32.md R114). -/
theorem Ended.extend (h : Ended m vs s) (hfull : m ≤ 5 * vs.length / 8) (ws : List (BitVec 5)) :
    Ended m (vs ++ ws) s := by
  refine ⟨h.stopped, h.err, h.kmax, h.nsym, h.acc, ?_⟩
  rw [symbolsValue_append, List.length_append, Nat.mul_add]
  exact h.key.extend (h.kmax.trans_le hfull) (symbolsValue_lt ws)

end

/-! ### A whole text -/

theorem validPrefix_of_none {c : Byte} {cs : List Byte} (h : sym c = none) : validPrefix (c :: cs) = [] := by
  simp [validPrefix, h]

theorem validPrefix_of_some {c : Byte} {cs : List Byte} {v : BitVec 5} (h : sym c = some v) :
    validPrefix (c :: cs) = v :: validPrefix cs := by
  simp [validPrefix, h]

/-- Pushing a text reads the symbols of its valid prefix (41_base32.md R107, R108, R115). -/
theorem Reading.pushes {m : Nat} (hm : m ≤ 64) {cs : List Byte} {vs : List (BitVec 5)} {s : State}
    (h : Reading m vs s) : ∃ t, runInstrs (cs.map .b32Push) s = .next t ∧
      (Reading m (vs ++ validPrefix cs) t ∨ Ended m (vs ++ validPrefix cs) t) := by
  induction cs generalizing vs s with
  | nil => exact ⟨s, rfl, .inl (by rwa [validPrefix, List.append_nil])⟩
  | cons c cs ih =>
    rw [List.map_cons]
    cases hc : sym c with
    | none =>
      have hend := h.terminated hm
      rw [runInstrs_cons (exec_b32Push_terminator h.active hc), validPrefix_of_none hc, List.append_nil]
      exact ⟨_, runInstrs_pushes_ended (.inl hend.stopped) hend.err cs, .inr hend⟩
    | some v =>
      rw [runInstrs_cons (exec_b32Push_symbol h.active hc), validPrefix_of_some hc, List.append_cons]
      rcases h.push v hm with hread | ⟨hend, hfull⟩
      · exact ih hread
      · exact ⟨_, runInstrs_pushes_ended (.inl hend.stopped) hend.err cs, .inr (hend.extend hfull _)⟩

/-- With no capacity the decoder has stopped before the first symbol, and else it reads (41_base32.md R103, R104). -/
theorem decodeStarted_reads {m : Nat} (hm : m ≤ 64) (s : State) :
    (m ≠ 0 ∧ Reading m [] (decodeStarted m s)) ∨ (m = 0 ∧ Ended m [] (decodeStarted m s)) := by
  have hkmax : (decodeStarted m s).kmax.toNat = m := (BitVec.toNat_ofNat m 7).trans (Nat.mod_eq_of_lt (by omega))
  have hkey : HoldsBytes (decodeStarted m s) 0 0 :=
    ⟨(Nat.zero_min _).symm, fun i hi => absurd hi (Nat.not_lt_zero i), (decodeStarted_keyInv hm s).key_tail⟩
  by_cases h0 : m = 0
  · exact .inr ⟨h0, if_pos h0, rfl, hkmax, rfl, rfl, hkey⟩
  · exact .inl ⟨h0, if_neg h0, hkmax, rfl, Nat.two_pow_pos _, 0, rfl, hkey⟩

/-- B32_INIT m and a text's characters read the symbols of its valid prefix. -/
theorem init_pushes {m : Nat} (hm : m ≤ 64) (s : State) (cs : List Byte) :
    ∃ t, runInstrs (.b32Init m :: cs.map .b32Push) s = .next t ∧
      (Reading m (validPrefix cs) t ∨ Ended m (validPrefix cs) t) := by
  rw [runInstrs_cons (exec_b32Init_of_le s hm)]
  rcases decodeStarted_reads hm s with ⟨-, h⟩ | ⟨rfl, h⟩
  · exact h.pushes hm
  · exact ⟨_, runInstrs_pushes_ended (.inl h.stopped) h.err cs, .inr (h.extend (Nat.zero_le _) (validPrefix cs))⟩

/-- B32_FINISH publishes the whole bytes of the symbols' number (41_base32.md R109). -/
theorem exec_b32Finish_publishes {m : Nat} (hm : m ≤ 64) {vs : List (BitVec 5)} {s : State}
    (h : Reading m vs s ∨ Ended m vs s) : ∃ t, exec .b32Finish s = .next t ∧ t.b32st = .finished ∧ t.nsym = 0 ∧
      t.acc = 0 ∧ t.kmax.toNat = m ∧ t.err = (if t.klen.toNat = 0 then .emptyKey else .ok) ∧
      HoldsBytes t (symbolsValue vs) (5 * vs.length) := by
  rcases h with h | h
  · have hkey := ((h.flushed hm).setB32st .finished).setErr (if (flush s).klen.toNat = 0 then .emptyKey else .ok)
    refine ⟨_, exec_b32Finish_active h.active, rfl, rfl, rfl, h.kmax, rfl, ?_⟩
    rw [← flush_frame]
    exact hkey
  · exact ⟨_, exec_b32Finish_ended (.inl h.stopped), rfl, h.nsym, h.acc, h.kmax, rfl,
      (h.key.setB32st .finished).setErr _⟩

theorem withDecoder_self (s : State) : s = withDecoder s s := by
  apply State.eq_of_fields <;> simp [withDecoder]

/-- The later of two changes of the decoder's elements stands. -/
theorem withDecoder_withDecoder (s d d' : State) : withDecoder (withDecoder s d) d' = withDecoder s d' := by
  apply State.eq_of_fields <;> simp [withDecoder]

/-- Decoder commands, one after the other, change the decoder's elements and ERR only (41_base32.md R120). -/
theorem runInstrs_decoder_frame {is : List Instr} (his : ∀ i ∈ is, IsDecoderCommand i) {s t : State}
    (h : runInstrs is s = .next t) : t = withDecoder s t := by
  induction is generalizing s with
  | nil => cases h; exact withDecoder_self _
  | cons i is ih =>
    obtain ⟨u, hu⟩ := exec_completes i s
    rw [runInstrs_cons hu] at h
    have hfirst := exec_decoder_frame (his i List.mem_cons_self) hu
    calc t = withDecoder u t := ih (fun j hj => his j (List.mem_cons_of_mem i hj)) h
      _ = withDecoder (withDecoder s u) t := congrArg (withDecoder · t) hfirst
      _ = withDecoder s t := withDecoder_withDecoder s u t

/-- Settles O45: the symbols of the valid prefix are read, B32_FINISH publishes their number's bytes, and the commands
are all the decoder's. -/
theorem wholeDecodeIsTheDecodeFunction : Obligations.WholeDecodeIsTheDecodeFunction := by
  unfold Obligations.WholeDecodeIsTheDecodeFunction
  intro s m cs hm
  obtain ⟨u, hu, hread⟩ := init_pushes hm s cs
  obtain ⟨t, ht, hst, hnsym, hacc, hkmax, herr, hkey⟩ := exec_b32Finish_publishes hm hread
  have hrun : runInstrs (.b32Init m :: (cs.map .b32Push ++ [.b32Finish])) s = .next t := by
    rw [← List.cons_append, runInstrs_append hu, runInstrs_cons ht, runInstrs]
  have hframe : t = withDecoder s t := runInstrs_decoder_frame (fun i hi => ?_) hrun
  · have hkmax' : t.kmax = BitVec.ofNat 7 m := by rw [← hkmax, BitVec.ofNat_toNat, BitVec.setWidth_eq]
    refine ⟨t.key, t.klen, ?_, ?_, hkey.bytes, hkey.tail⟩
    · rw [hrun, hframe, withDecoder, hst, hnsym, hacc, hkmax', herr]
      rfl
    · rw [hkey.klen, hkmax, Nat.min_comm]
  · simp only [List.mem_cons, List.mem_append, List.mem_map, List.not_mem_nil, or_false] at hi
    obtain rfl | ⟨c, -, rfl⟩ | rfl := hi
    · exact .inl ⟨m, rfl⟩
    · exact .inr (.inl ⟨c, rfl⟩)
    · exact .inr (.inr rfl)

end Sys2Proof.Machine
end

section
/-! SUPPORT. Numbers read back from their digits: COUNTER from the bytes of CB (42_counter.md R132), and TVAL from the
characters of a token (43_truncate.md R153); and what TRUNC reads and leaves (R141, R151, R154). -/

namespace Sys2Proof.Machine

/-- A number's first `n` digits of `d` in base `b`, most significant first, read as a number. -/
theorem foldl_digits {b d V : Nat} {digit : Nat → Nat} (hV : V < b ^ d)
    (hdigit : ∀ i, i < d → digit i = V / b ^ (d - 1 - i) % b) {n : Nat} (hn : n ≤ d) :
    (List.range n).foldl (fun acc i => acc * b + digit i) 0 = V / b ^ (d - n) := by
  induction n with
  | zero => exact (Nat.div_eq_of_lt hV).symm
  | succ n ih =>
    have hexp : d - n = d - (n + 1) + 1 := by omega
    have hpos : d - 1 - n = d - (n + 1) := by omega
    rw [List.range_succ, List.foldl_append, List.foldl_cons, List.foldl_nil, ih (by omega), hdigit n hn, hpos, hexp,
      Nat.pow_succ, ← Nat.div_div_eq_div_mul, Nat.mul_comm, Nat.div_add_mod]

/-- All `d` digits read back the number. -/
theorem foldl_all_digits {b d V : Nat} {digit : Nat → Nat} (hV : V < b ^ d)
    (hdigit : ∀ i, i < d → digit i = V / b ^ (d - 1 - i) % b) :
    (List.range d).foldl (fun acc i => acc * b + digit i) 0 = V := by
  rw [foldl_digits hV hdigit le_rfl, Nat.sub_self, Nat.pow_zero, Nat.div_one]

/-! ### The counter's bytes -/

/-- A counter byte is a digit of COUNTER in base 256 (42_counter.md R131). -/
theorem byteAt_counterBytes_toNat (c : BitVec 64) {i : Nat} (hi : i < 8) :
    (byteAt (counterBytes c) i).toNat = c.toNat / (2 ^ 8) ^ (8 - 1 - i) % 2 ^ 8 := by
  rw [byteAt_counterBytes c hi, BitVec.extractLsb'_toNat, Nat.shiftRight_eq_div_pow, ← Nat.pow_mul]

/-- A byte of a word that is cut from a longer one is cut from that one. -/
theorem extractLsb'_byte_of_word {c : BitVec 64} {p q : Nat} (hq : q + 8 ≤ 32) :
    (c.extractLsb' p 32).extractLsb' q 8 = c.extractLsb' (p + q) 8 := by
  ext k hk
  have hlt : q + k < 32 := by omega
  simp [hlt, Nat.add_assoc]

/-- The first four counter bytes are CNT_HI's, the other four CNT_LO's, most significant first (42_counter.md R132). -/
theorem byteAt_counterBytes_halves (s : State) {i : Nat} (hi : i < 4) :
    byteAt (counterBytes s.counter) i = (cntHiWord s).extractLsb' (24 - 8 * i) 8 ∧
      byteAt (counterBytes s.counter) (4 + i) = (cntLoWord s).extractLsb' (24 - 8 * i) 8 := by
  have hhi : 32 + (24 - 8 * i) = 8 * (7 - i) := by omega
  have hlo : 0 + (24 - 8 * i) = 8 * (7 - (4 + i)) := by omega
  rw [byteAt_counterBytes _ (by omega), byteAt_counterBytes _ (by omega), cntHiWord, cntLoWord,
    extractLsb'_byte_of_word (by omega), extractLsb'_byte_of_word (by omega), hhi, hlo]
  exact ⟨rfl, rfl⟩

/-- Settles O50: the bytes are COUNTER's digits in base 256, and each half's are its register's. -/
theorem counterRoundTrip : Obligations.CounterRoundTrip := by
  unfold Obligations.CounterRoundTrip
  intro s t h
  cases (exec_ctrEnc s).symm.trans h
  exact ⟨foldl_all_digits s.counter.isLt fun i hi => byteAt_counterBytes_toNat s.counter hi,
    fun i hi => byteAt_counterBytes_halves s hi⟩

/-! ### The token's characters -/

/-- A TRUNC that leaves OK had a legal digit count, and leaves the `d` decimal digits of TVAL and zeros after them
(43_truncate.md R147 to R149). -/
theorem exec_trunc_ok_token {d : Nat} {s t : State} (h : exec (.trunc d) s = .next t) (hok : t.err = .ok) :
    d ≤ 10 ∧ t.tval.toNat < 10 ^ d ∧ t.token = tokenBytes t.tval.toNat d := by
  rcases execTrunc_cases d s with ⟨c, hc, e⟩ | ⟨-, h10, -, -, e⟩ <;> cases e.symm.trans h
  · exact absurd hok hc
  · have htval : ((renderToken d s).setErr .ok).tval.toNat = tokenValue (truncRaw s.digest) d := tokenValue_tval _ d
    rw [htval]
    exact ⟨h10, (tokenValue_lt _ d).1, rfl⟩

/-- The first `d` characters of a token are decimal digits (43_truncate.md R148). -/
theorem byteAt_tokenBytes_toNat (tv : Nat) {d i : Nat} (hd : d ≤ 10) (hi : i < d) :
    (byteAt (tokenBytes tv d) i).toNat = 0x30 + tv / 10 ^ (d - 1 - i) % 10 := by
  rw [byteAt_tokenBytes, if_pos ⟨Nat.lt_of_lt_of_le hi hd, hi⟩, tokenDigit_toNat]

/-- A token's character is not 0 exactly where it is a digit (43_truncate.md R149). -/
theorem byteAt_tokenBytes_ne_zero_iff (tv : Nat) {d i : Nat} (hd : d ≤ 10) :
    byteAt (tokenBytes tv d) i ≠ 0 ↔ i < d := by
  constructor
  · intro hne
    by_contra hi
    exact hne (by rw [byteAt_tokenBytes, if_neg fun h => hi h.2])
  · intro hi h0
    have h := byteAt_tokenBytes_toNat tv hd hi
    have hz : (0 : Byte).toNat = 0 := rfl
    rw [h0, hz] at h
    omega

/-- Settles O53: the token's characters are the digits of TVAL in base 10. -/
theorem tokenReadsBackAsItsValue : Obligations.TokenReadsBackAsItsValue := by
  unfold Obligations.TokenReadsBackAsItsValue
  intro s t d h hok
  obtain ⟨hd, hlt, htoken⟩ := exec_trunc_ok_token h hok
  have hdigit {i : Nat} (hi : i < d) := byteAt_tokenBytes_toNat t.tval.toNat hd hi
  rw [htoken]
  refine ⟨fun i _ => byteAt_tokenBytes_ne_zero_iff _ hd, fun i hi => ?_, foldl_all_digits hlt fun i hi => ?_⟩
  · have := Nat.mod_lt (t.tval.toNat / 10 ^ (d - 1 - i)) (show 0 < 10 by decide)
    rw [hdigit hi]
    omega
  · rw [hdigit hi, Nat.add_sub_cancel_left]

/-! ### What TRUNC reads and leaves -/

theorem digestPart_eq_iff {s s' : State} :
    s'.digestPart = s.digestPart ↔ s'.dv = s.dv ∧ s'.merr = s.merr ∧ s'.digest = s.digest := by
  simp [State.digestPart]

/-- What a TRUNC leaves outside the token: DIGEST, MERR, COUNTER and CB as they were, and DV 0 with TVALID 1 where it
succeeds (43_truncate.md R151, R154). -/
theorem exec_trunc_frame {d : Nat} {s t : State} (h : exec (.trunc d) s = .next t) :
    t.digest = s.digest ∧ t.merr = s.merr ∧ t.counter = s.counter ∧ t.cb = s.cb ∧
      (t.err = .ok → t.tvalid = true ∧ t.dv = false) := by
  rcases execTrunc_cases d s with ⟨c, hc, e⟩ | ⟨-, -, -, -, e⟩ <;> cases e.symm.trans h
  · exact ⟨rfl, rfl, rfl, rfl, fun hok => absurd hok hc⟩
  · exact ⟨rfl, rfl, rfl, rfl, fun _ => ⟨rfl, rfl⟩⟩

/-- TRUNC reads only DIGEST, DV and MERR: they fix the check that fails, and else the token (43_truncate.md R154). -/
theorem exec_trunc_congr {d : Nat} {s s' t t' : State} (hs : s'.digestPart = s.digestPart)
    (h : exec (.trunc d) s = .next t) (h' : exec (.trunc d) s' = .next t') :
    t'.err = t.err ∧ t'.tvalid = t.tvalid ∧ t'.digestPart = t.digestPart ∧
      (t.err = .ok → t'.tokenPart = t.tokenPart) := by
  obtain ⟨hdv, hmerr, hdigest⟩ := digestPart_eq_iff.mp hs
  have herr : t'.err = t.err := by rw [exec_trunc_err h, exec_trunc_err h', hdv, hmerr]
  refine ⟨herr, ?_⟩
  rcases execTrunc_cases d s with ⟨c, hc, e⟩ | ⟨-, -, -, -, e⟩ <;> cases e.symm.trans h <;>
    rcases execTrunc_cases d s' with ⟨c', hc', e'⟩ | ⟨-, -, -, -, e'⟩ <;> cases e'.symm.trans h'
  · exact ⟨rfl, hs, fun hok => absurd hok hc⟩
  · exact absurd herr.symm hc
  · exact absurd herr hc'
  · simp [renderToken, State.digestPart, State.tokenPart, hmerr, hdigest]

/-- Settles O54: TRUNC's frame, and that DIGEST, DV and MERR fix what it leaves. -/
theorem truncReadsOnlyTheDigest : Obligations.TruncReadsOnlyTheDigest := by
  unfold Obligations.TruncReadsOnlyTheDigest
  intro s s' t d hs h
  obtain ⟨hdigest, hmerr, hcounter, hcb, hok⟩ := exec_trunc_frame h
  obtain ⟨t', h'⟩ := exec_completes (.trunc d) s'
  exact ⟨hok, ⟨hdigest, hmerr, hcounter, hcb, exec_trunc_decoderPart h⟩, t', h', exec_trunc_congr hs h h'⟩

/-- Settles O56: the check of MERR comes before that of DV, and no step but a DSTAT write or a reset writes MERR. -/
theorem macFailureBlocksTruncation : Obligations.MacFailureBlocksTruncation := by
  unfold Obligations.MacFailureBlocksTruncation
  refine ⟨fun s d hm h1 h10 => exec_trunc_of_merr h1 h10 hm, fun s t hm h ht => ?_⟩
  rcases step_dstat_cases h with hw | hr | ⟨hkeep, -⟩
  · exact .inl hw
  · exact .inr hr
  · rw [hkeep, hm] at ht
    cases ht

end Sys2Proof.Machine
end

section
/-! SUPPORT. Who writes which element: what each command changes besides ERR (10_state.md R23 to R35), what a register
write changes (20_memory.md R62), and from these what a step changes; then what a failing command leaves
(60_exceptions.md R171), and the order of a decoder command and CTR_ENC (70_reset_and_hazards.md R193). -/

namespace Sys2Proof.Machine

/-! ### The writers of each element -/

/-- B32_INIT alone writes KMAX (10_state.md R24). -/
theorem exec_decoder_kmax {i : Instr} {s t : State} (hi : IsDecoderCommand i) (hne : ∀ m, i ≠ .b32Init m)
    (h : exec i s = .next t) : t.kmax = s.kmax := by
  obtain ⟨m, rfl⟩ | ⟨c, rfl⟩ | rfl := hi
  · exact absurd rfl (hne m)
  · rcases execB32Push_cases c s with ⟨-, e⟩ | ⟨-, e⟩ | ⟨-, -, e⟩ | ⟨v, -, -, e⟩ <;> cases e.symm.trans h
    · rfl
    · rfl
    · rw [flush_frame s]; rfl
    · obtain ⟨_, _, _, _, _, hf⟩ := pushSymbol_frame v s
      rw [hf]; rfl
  · rcases execB32Finish_cases s with ⟨-, e⟩ | ⟨-, e⟩ <;> cases e.symm.trans h
    · rfl
    · obtain ⟨_, _, _, _, hf⟩ := endInput_frame s
      rw [hf]; rfl

/-- What a command that is no SRST changes, but for ERR, DV and MERR: an element only where the command is one of its
writers (10_state.md R23 to R35). -/
structure CommandWrites (i : Instr) (s t : State) : Prop where
  counter : t.counter = s.counter
  digest : t.digest = s.digest
  cb : t.cb ≠ s.cb → i = .ctrEnc
  decoder : t.decoderPart ≠ s.decoderPart → IsDecoderCommand i
  kmax : t.kmax ≠ s.kmax → ∃ m, i = .b32Init m
  tvalid : t.tvalid ≠ s.tvalid → ∃ d, i = .trunc d
  token : t.token ≠ s.token ∨ t.tlen ≠ s.tlen ∨ t.toff ≠ s.toff ∨ t.traw ≠ s.traw ∨ t.tval ≠ s.tval →
    t.err = .ok ∧ ∃ d, i = .trunc d

/-- A change of ERR alone is no change of these elements. -/
theorem commandWrites_setErr (i : Instr) (s : State) (c : ResultCode) : CommandWrites i s (s.setErr c) := by
  constructor <;> simp [State.decoderPart]

theorem decoder_commandWrites {i : Instr} {s t : State} (hi : IsDecoderCommand i) (h : exec i s = .next t) :
    CommandWrites i s t := by
  have hframe := exec_decoder_frame hi h
  have hkmax : t.kmax ≠ s.kmax → ∃ m, i = .b32Init m := fun hne => by
    by_contra hinit
    exact hne (exec_decoder_kmax hi (not_exists.mp hinit) h)
  rw [hframe]
  exact ⟨rfl, rfl, fun hne => absurd rfl hne, fun _ => hi, hkmax, fun hne => absurd rfl hne, by simp [withDecoder]⟩

theorem exec_commandWrites {i : Instr} {s t : State} (hi : i ≠ .srst) (h : exec i s = .next t) :
    CommandWrites i s t := by
  cases i with
  | nop => cases h; exact commandWrites_setErr _ s _
  | b32Init m => exact decoder_commandWrites (.inl ⟨m, rfl⟩) h
  | b32Push c => exact decoder_commandWrites (.inr (.inl ⟨c, rfl⟩)) h
  | b32Finish => exact decoder_commandWrites (.inr (.inr rfl)) h
  | ctrEnc =>
    cases (exec_ctrEnc s).symm.trans h
    constructor <;> simp [State.decoderPart]
  | trunc d =>
    rcases execTrunc_cases d s with ⟨c, -, e⟩ | ⟨-, -, -, -, e⟩ <;> cases e.symm.trans h <;>
      constructor <;> simp [State.decoderPart, renderToken]
  | srst => exact absurd rfl hi

/-- Only a write to CNT_LO or CNT_HI changes COUNTER (10_state.md R25). -/
theorem writeWord_keeps_counter {off : Nat} (hlo : off ≠ 0x00C) (hhi : off ≠ 0x010) (v : Word) (s : State) :
    (writeWord off v s).counter = s.counter := by
  unfold writeWord
  rw [if_neg hlo, if_neg hhi]
  split_ifs <;> simp

/-- Only a write that has a DIGEST byte behind one of its lanes changes DIGEST (20_memory.md R55, 10_state.md R33). -/
theorem writeWord_keeps_digest {off : Nat} (h : off < 0x0C0 ∨ 0x0D4 ≤ off) (v : Word) (s : State) :
    (writeWord off v s).digest = s.digest := by
  by_cases hdg : 0x0C0 ≤ off ∧ off < 0x100
  · rw [writeWord_digest s v hdg.1 hdg.2]
    refine buffer_ext fun i hi => ?_
    rw [State.setDigest_digest, byteAt_writeLanes, if_neg]
    simp only [Config.digestLen] at hi ⊢
    omega
  · unfold writeWord
    rw [if_neg hdg]
    split_ifs <;> rfl

/-- What a write to a register other than CMD may change, but for DV and MERR. -/
theorem writeWord_writers (off : Nat) (v : Word) (s : State) :
    ((writeWord off v s).counter ≠ s.counter → off = 0x00C ∨ off = 0x010) ∧
      ((writeWord off v s).digest ≠ s.digest → 0x0C0 ≤ off ∧ off < 0x0D4) := by
  refine ⟨fun hne => ?_, fun hne => ?_⟩
  · by_contra hoff
    rw [not_or] at hoff
    exact hne (writeWord_keeps_counter hoff.1 hoff.2 v s)
  · by_contra hoff
    exact hne (writeWord_keeps_digest (by omega) v s)

/-- A command word's writers are its command's; an illegal word writes ERR alone (30_encoding.md R84 to R86). -/
theorem runWord_commandWrites {w : Word} {s t : State} (hw : decode w ≠ .ok .srst) (h : runWord w s = .next t) :
    (∃ i, decode w = .ok i ∧ CommandWrites i s t) ∨ t = s.setErr .illegal := by
  rcases runWord_cases w s with ⟨i, hd, e⟩ | ⟨_, -, e⟩
  · exact .inl ⟨i, hd, exec_commandWrites (fun hi => hw (hi ▸ hd)) (e.symm.trans h)⟩
  · cases e.symm.trans h
    exact .inr rfl

/-- Settles O27: an idle step and a read change no element, a register write those of `writeWord`, and a command those
of its row; DV and MERR by O26. -/
theorem everyElementHasItsWriters : Obligations.EveryElementHasItsWriters := by
  unfold Obligations.EveryElementHasItsWriters
  intro s t h
  by_cases hr : NextResets s
  · exact .inl hr
  right
  obtain ⟨-, -, dv_writers, -, merr_writers⟩ := digestStatusRegister
  have hdv : t.dv ≠ s.dv → NextWrites s 0x014 ∨ (t.dv = false ∧ t.err = .ok ∧ ∃ d, NextRuns s (.trunc d)) :=
    fun hne => (dv_writers s t h hne).imp_right (Or.resolve_left · hr)
  have hmerr : t.merr ≠ s.merr → NextWrites s 0x014 := fun hne => (merr_writers s t h hne).resolve_right hr
  rcases step_cases h with ⟨-, rfl⟩ | ⟨rest, hi, -⟩ | ⟨_, _, -, -, -, rfl⟩ | ⟨m, off, v, rest, hi, -, -, -, rfl⟩ |
    ⟨m, w, rest, u, hi, hu, rfl⟩
  · simp
  · exact absurd (.inr ⟨rest, hi⟩) hr
  · simp [State.decoderPart]
  · obtain ⟨hcounter, hdigest⟩ := writeWord_writers off v (s.setInputs rest)
    refine ⟨?_, ?_, ?_, ?_, fun hne => ?counter, ?_, hdv, hmerr, fun hne => ?digest, ?_⟩
    case counter =>
      rcases hcounter hne with rfl | rfl
      · exact .inl ⟨m, v, rest, hi⟩
      · exact .inr ⟨m, v, rest, hi⟩
    case digest =>
      obtain ⟨hl, hh⟩ := hdigest hne
      exact ⟨off, hl, hh, m, v, rest, hi⟩
    all_goals
      obtain ⟨_, _, _, _, hf⟩ := writeWord_frame off v (s.setInputs rest)
      simp [hf, State.decoderPart]
  · have hcmd : NextIsCommand s := ⟨m, w, rest, hi⟩
    have hw : decode w ≠ .ok .srst := fun hd => hr (.inl ⟨m, w, rest, hi, hd⟩)
    rcases runWord_commandWrites hw hu with ⟨i, hd, hwrites⟩ | rfl
    · have hruns : NextRuns s i := ⟨m, w, rest, hi, hd⟩
      refine ⟨fun _ => hcmd, fun hne => ?tvalid, fun hne => ?kmax, fun hne => ?decoder,
        fun hne => absurd hwrites.counter hne, fun hne => hwrites.cb hne ▸ hruns, hdv, hmerr,
        fun hne => absurd hwrites.digest hne, fun hne => ?token⟩
      case tvalid =>
        obtain ⟨d, rfl⟩ := hwrites.tvalid hne
        exact ⟨d, hruns⟩
      case kmax =>
        obtain ⟨n, rfl⟩ := hwrites.kmax hne
        exact ⟨n, hruns⟩
      case decoder =>
        obtain ⟨n, rfl⟩ | ⟨c, rfl⟩ | rfl := hwrites.decoder hne
        · exact .inl ⟨n, hruns⟩
        · exact .inr (.inl ⟨c, hruns⟩)
        · exact .inr (.inr hruns)
      case token =>
        obtain ⟨hok, d, rfl⟩ := hwrites.token hne
        exact ⟨hok, d, hruns⟩
    · simp [State.decoderPart, hcmd]

/-! ### The key after B32_FINISH -/

/-- In FINISHED the decoder's commands but B32_INIT leave the decoder's elements (41_base32.md R107, R111). -/
theorem exec_decoder_finished {i : Instr} {s t : State} (hi : IsDecoderCommand i) (hne : ∀ m, i ≠ .b32Init m)
    (hst : s.b32st = .finished) (h : exec i s = .next t) : t.decoderPart = s.decoderPart := by
  obtain ⟨m, rfl⟩ | ⟨c, rfl⟩ | rfl := hi
  · exact absurd rfl (hne m)
  · cases (exec_b32Push_ended (.inr hst) c).symm.trans h
    rfl
  · cases (exec_b32Finish_ended (.inr hst)).symm.trans h
    simp [State.decoderPart, hst]

/-- In FINISHED a step that is no reset and runs no B32_INIT leaves the decoder's elements (41_base32.md R111). -/
theorem step_decoderPart_finished {s t : State} (hst : s.b32st = .finished) (h : step s = .next t)
    (hr : ¬ NextResets s) (hinit : ∀ m, ¬ NextRuns s (.b32Init m)) : t.decoderPart = s.decoderPart := by
  rcases step_cases h with ⟨-, rfl⟩ | ⟨rest, hi, -⟩ | ⟨_, _, -, -, -, rfl⟩ | ⟨_, _, _, _, -, -, -, -, rfl⟩ |
    ⟨m, w, rest, u, hi, hu, rfl⟩
  · rfl
  · exact absurd (.inr ⟨rest, hi⟩) hr
  · simp
  · simp
  · have hw : decode w ≠ .ok .srst := fun hd => hr (.inl ⟨m, w, rest, hi, hd⟩)
    rcases runWord_commandWrites hw hu with ⟨i, hd, hwrites⟩ | rfl
    · have hne_init : ∀ n, i ≠ .b32Init n := fun n hn => hinit n ⟨m, w, rest, hi, hn ▸ hd⟩
      have hpart : u.decoderPart = (s.setInputs rest).decoderPart := by
        by_contra hne
        exact hne (exec_decoder_finished (hwrites.decoder hne) hne_init hst ((runWord_of_decode hd _).symm.trans hu))
      exact hpart
    · rfl

/-- Settles O47: only the decoder's commands write the key, and in FINISHED only B32_INIT does. -/
theorem keyIsImmutableOnceFinished : Obligations.KeyIsImmutableOnceFinished := by
  unfold Obligations.KeyIsImmutableOnceFinished
  intro s t hst h hr hinit
  obtain ⟨hb32st, -, hklen, hkmax, -, hkey⟩ := decoderPart_eq_iff.mp (step_decoderPart_finished hst h hr hinit)
  exact ⟨hkey, hklen, hkmax, hb32st.trans hst⟩

/-! ### Failing commands -/

/-- A command that leaves a code other than OK and EMPTY_KEY has changed ERR alone or, where it is a TRUNC, TVALID too
(60_exceptions.md R171). -/
theorem exec_failing {i : Instr} {s t : State} (h : exec i s = .next t) (hok : t.err ≠ .ok) (hempty : t.err ≠ .emptyKey) :
    t = s.setErr t.err ∨ (t = (s.setTvalid false).setErr t.err ∧ ∃ d, i = .trunc d) := by
  cases i with
  | nop => cases h; exact absurd rfl hok
  | b32Init m =>
    rcases execB32Init_cases m s with ⟨-, e⟩ | ⟨-, e⟩ <;> cases e.symm.trans h
    · exact .inl rfl
    · exact absurd rfl hok
  | b32Push c =>
    rcases execB32Push_cases c s with ⟨-, e⟩ | ⟨-, e⟩ | ⟨-, -, e⟩ | ⟨v, -, -, e⟩ <;> cases e.symm.trans h
    · exact .inl rfl
    all_goals exact absurd rfl hok
  | b32Finish =>
    rcases execB32Finish_cases s with ⟨-, e⟩ | ⟨-, e⟩ <;> cases e.symm.trans h
    · exact .inl rfl
    · rw [State.setErr_err] at hok hempty
      split at hok
      · next hk => exact absurd (if_pos hk) hempty
      · exact absurd rfl hok
  | ctrEnc => cases h; exact absurd rfl hok
  | trunc d =>
    rcases execTrunc_cases d s with ⟨c, -, e⟩ | ⟨-, -, -, -, e⟩ <;> cases e.symm.trans h
    · exact .inr ⟨rfl, d, rfl⟩
    · exact absurd rfl hok
  | srst => cases h; exact absurd rfl hok

/-- Settles O59: the failing outcomes of each command, and ERR alone for an illegal word. -/
theorem failingCommandsDoNothingElse : Obligations.FailingCommandsDoNothingElse := by
  unfold Obligations.FailingCommandsDoNothingElse
  intro w s t h hok hempty
  rcases runWord_cases w s with ⟨i, hd, e⟩ | ⟨_, -, e⟩
  · rcases exec_failing (e.symm.trans h) hok hempty with ht | ⟨ht, d, rfl⟩
    · rw [ht]
      exact ⟨rfl, .inl rfl⟩
    · rw [ht]
      exact ⟨rfl, .inr ⟨rfl, d, hd⟩⟩
  · cases e.symm.trans h
    exact ⟨rfl, .inl rfl⟩

/-! ### The decoder and the counter encoder -/

/-- Decoder elements that agree leave the same state, whatever ERR is then set to. -/
theorem withDecoder_congr {d d' : State} (h : d'.decoderPart = d.decoderPart) (s : State) (c : ResultCode) :
    (withDecoder s d').setErr c = (withDecoder s d).setErr c := by
  obtain ⟨hst, hn, hklen, hkmax, hacc, hkey⟩ := decoderPart_eq_iff.mp h
  rw [withDecoder, withDecoder, hst, hn, hklen, hkmax, hacc, hkey]
  rfl

/-- Settles O60: CTR_ENC writes CB from COUNTER, and a decoder command reads and writes the decoder's elements. -/
theorem decoderAndCounterEncoderCommute : Obligations.DecoderAndCounterEncoderCommute := by
  unfold Obligations.DecoderAndCounterEncoderCommute
  intro i s hi
  obtain ⟨t, ht⟩ := exec_completes i s
  obtain ⟨u', hu', hpart, -⟩ := exec_decoder_congr hi ht (s' := (s.setCb (counterBytes s.counter)).setErr .ok) rfl
  refine ⟨t, _, _, u', ht, exec_ctrEnc t, exec_ctrEnc s, hu', ?_⟩
  calc u'.setErr .ok
      = (withDecoder ((s.setCb (counterBytes s.counter)).setErr .ok) u').setErr .ok :=
        congrArg (State.setErr · .ok) (exec_decoder_frame hi hu')
    _ = (withDecoder ((s.setCb (counterBytes s.counter)).setErr .ok) t).setErr .ok := withDecoder_congr hpart _ _
    _ = ((withDecoder s t).setCb (counterBytes (withDecoder s t).counter)).setErr .ok := rfl
    _ = (t.setCb (counterBytes t.counter)).setErr .ok := by rw [← exec_decoder_frame hi ht]

end Sys2Proof.Machine
end
